-- ==== Sys2Proof/Word.lean ====
section
/-! DEFINITION. The words of the DP6-48: bytes of a frame and 32-bit left-justified sample values (00_scope.md,
"Conventions"). -/

namespace Sys2Proof

/-- One byte of a command frame, a response frame or a block. -/
abbrev Byte := BitVec 8

/-- A sample value, fill word or idle word: 32 bits, left-justified. -/
abbrev Word := BitVec 32

end Sys2Proof
end

