-- ==== Sys2Proof/Config.lean ====
section
/-! DEFINITION. The sizes the manual fixes for the part. The manual leaves no value to an implementation, so there is no
free value here. -/

namespace Sys2Proof.Config

/-- Patch records (R1). -/
abbrev patches : Nat := 48
/-- Tickets (R52). -/
abbrev tickets : Nat := 12
/-- Tickets that may belong to the aux link (R54). -/
abbrev auxTickets : Nat := 8
/-- Ports A to F. -/
abbrev ports : Nat := 6
/-- Slots of each port in the slot maps (R16, R17). -/
abbrev slots : Nat := 16
/-- Destinations of one patch (R4). -/
abbrev destinations : Nat := 4
/-- Places of a command queue and of a response queue (R153, R154). -/
abbrev queuePlaces : Nat := 4
/-- Parameter bytes a link stores (R151). -/
abbrev storedParams : Nat := 36
/-- Entries of one READ-TABLE answer (R22). -/
abbrev tableEntries : Nat := 16
/-- The value at which the 16-bit counts saturate (R44, R45, R112). -/
abbrev countMax : Nat := 65535
/-- The first aux address, ADDR1 and ADDR0 both low (R160). -/
abbrev auxBaseAddress : BitVec 7 := 0x2A

/-- REFCLK periods between two loss ticks (R113). -/
abbrev lossTickPeriods : Nat := 256

end Sys2Proof.Config
end

