-- ==== Sys2Proof/Syntax.lean ====
section
/-! DEFINITION. The commands and events of the part: one constructor of `Instr` for each row of spec/opcode_table.json. -/

namespace Sys2Proof

/-- The six sample ports; A is 0 and F is 5 wherever a number is sent. -/
inductive Port where
  | A | B | C | D | E | F
  deriving DecidableEq, Repr

/-- A slot number, 0 to 15. -/
abbrev Slot := Fin Config.slots
/-- A patch number, 0 to 47. -/
abbrev PatchNo := Fin Config.patches
/-- A ticket number, 0 to 11. -/
abbrev TicketNo := Fin Config.tickets

/-- The two control links (R52: MAIN, AUX). -/
inductive Link where
  | main | aux
  deriving DecidableEq, Repr

/-- What one arrival or one hold queue entry carries: one value, or a left and a right value (R25, R30). -/
inductive Sample where
  | single (v : Word)
  | pair (l r : Word)
  deriving DecidableEq, Repr

/-- A command frame as a link stores it: code, host sequence, declared parameter length, stored parameters (R151). -/
structure Frame where
  code : Byte
  seq : Byte
  len : Byte
  params : List Byte
  deriving DecidableEq, Repr

/-- A command frame of a known code in the arbiter's hands: the link it came from and the rest of its frame (R163). -/
structure Taken where
  link : Link
  seq : Byte
  len : Byte
  params : List Byte
  deriving DecidableEq, Repr

/-- What happens on the pins of the main link: SPI_CS_N falls; one pulse of SPI_SCK, with the level of SPI_DI at its rising
edge; SPI_CS_N rises (R156). -/
inductive SpiEvent where
  | select
  | clock (di : Bool)
  | deselect
  deriving DecidableEq, Repr

/-- The levels the bus gives the two lines of the aux link, high where nothing outside the part pulls them low (R160). -/
structure Wire where
  scl : Bool
  sda : Bool
  deriving DecidableEq, Repr

/-- The rows of the table of operations and events. -/
inductive Instr where
  -- host commands, each as the arbiter takes it from its link's command queue (R163, R169)
  | install (t : Taken)
  | retire (t : Taken)
  | rebind (t : Taken)
  | addDest (t : Taken)
  | dropDest (t : Taken)
  | mute (t : Taken)
  | unmute (t : Taken)
  | cancel (t : Taken)
  | readTicket (t : Taken)
  | lock (t : Taken)
  | unlock (t : Taken)
  | tune (t : Taken)
  | readPatch (t : Taken)
  | readTable (t : Taken)
  | readSlotmap (t : Taken)
  | readCounts (t : Taken)
  | clearTable (t : Taken)
  | portSet (t : Taken)
  | portStart (t : Taken)
  | portStop (t : Taken)
  | readPort (t : Taken)
  | readAlerts (t : Taken)
  | ackAlerts (t : Taken)
  | setAlertMask (t : Taken)
  | setAux (t : Taken)
  | unknownCode (code : Byte) (t : Taken)
  -- transactions of the links, whole or in parts, as what happens on the pins (log entry 9)
  /-- A SEND transaction (R157). -/
  | send (pins : List SpiEvent)
  /-- A FETCH transaction (R158). -/
  | fetch (pins : List SpiEvent)
  /-- A STATUS transaction (R159). -/
  | status (pins : List SpiEvent)
  /-- The first data byte of an aux write (R161). -/
  | auxWriteFirstByte (pins : List Wire)
  /-- The rest of an aux write, to its stop or repeated start (R161). -/
  | auxWriteEnd (pins : List Wire)
  /-- An aux status read (R162). -/
  | statusRead (pins : List Wire)
  /-- An aux response read: what happens on the bus up to its last byte, and from that byte's acknowledge bit on (R162). -/
  | responseRead (pins ending : List Wire)
  /-- Power-on or RESET_N; `addr` is the level of ADDR1 and ADDR0 at its end (R160, R167). -/
  | powerOnReset (addr : BitVec 2)
  -- framing
  /-- A follower samples SYNC at each bit clock; `samples` are the samples since its last edge, and the last of them makes a
  frame start edge (R105, R106). -/
  | frameStartEdge (p : Port) (samples : List Bool)
  /-- The same for a mid edge (R105, R107). -/
  | midEdge (p : Port) (samples : List Bool)
  /-- A frame boundary of a leader port after its first (R103, R117). -/
  | leaderFrameStart (p : Port)
  /-- The Patch Controller takes a frame start; `entry` when it is the port's LOCKED entry (R56, R119). -/
  | frameStart (p : Port) (entry : Bool)
  /-- The Patch Controller takes a LOCKED exit (R58). -/
  | lockedExit (p : Port)
  /-- The Sample Exchange takes a dormancy change: `entered` for a LOCKED entry, else an exit (R35, R36). -/
  | dormancyChange (p : Port) (entered : Bool)
  /-- A loss tick, handed to every Port Engine (R113). -/
  | lossTick
  /-- The loss timer of a follower reaches its timeout (R114). -/
  | lossExpiry (p : Port)
  -- slot service
  /-- An input slot completes; bit 31 of `din` is the first bit of its span (R124, R125). -/
  | slotComplete (p : Port) (n : Slot) (din : Word)
  /-- An output slot comes due (R124, R129). -/
  | slotDue (p : Port) (n : Slot)
  /-- The Sample Exchange takes an arrival (R30). -/
  | arrival (patch : PatchNo) (p : Port) (n : Slot) (x : Sample)
  /-- The Sample Exchange answers a take (R38). -/
  | take (patch : PatchNo) (p : Port) (first : Slot)
  /-- The Sample Exchange answers a second-slot request (R43). -/
  | secondSlotRequest (patch : PatchNo) (p : Port) (first : Slot)
  deriving DecidableEq, Repr

end Sys2Proof
end

