-- ==== Sys2Proof/WellFormed.lean ====
section
/-! DEFINITION. Which terms of `Instr` a link, a port or a block can present. -/

namespace Sys2Proof

/-- The command codes of section 8.7 (R168). -/
def knownCodes : List Byte :=
  [0x10, 0x11, 0x12, 0x13, 0x14, 0x15, 0x16, 0x20, 0x21, 0x28, 0x29, 0x2A, 0x30,
   0x31, 0x32, 0x33, 0x38, 0x40, 0x41, 0x42, 0x43, 0x50, 0x51, 0x52, 0x60]

/-- A link queues a frame once its declared bytes have arrived and keeps the first 36 of them (R151). -/
def Taken.wf (t : Taken) : Bool :=
  t.params.length == min t.len.toNat Config.storedParams

/-- Only one of the two lines changes at a time, so that it is plain whether data change or a condition is made (R160). -/
def wiresOk : List Wire → Bool
  | a :: b :: rest => (a.scl == b.scl || a.sda == b.sda) && wiresOk (b :: rest)
  | _ => true

/-- Well-formed commands and events. -/
def Instr.wf : Instr → Bool
  | .install t | .retire t | .rebind t | .addDest t | .dropDest t | .mute t | .unmute t
  | .cancel t | .readTicket t | .lock t | .unlock t | .tune t | .readPatch t | .readTable t
  | .readSlotmap t | .readCounts t | .clearTable t | .portSet t | .portStart t | .portStop t
  | .readPort t | .readAlerts t | .ackAlerts t | .setAlertMask t | .setAux t => t.wf
  | .unknownCode code t => t.wf && !(knownCodes.contains code)
  -- an edge is seen at a sample (R105)
  | .frameStartEdge _ samples | .midEdge _ samples => !samples.isEmpty
  | .auxWriteFirstByte pins | .auxWriteEnd pins | .statusRead pins => wiresOk pins
  | .responseRead pins ending => wiresOk (pins ++ ending)
  | .send _ | .fetch _ | .status _ | .powerOnReset _ | .leaderFrameStart _ | .frameStart _ _ | .lockedExit _ | .dormancyChange _ _
  | .lossTick | .lossExpiry _ | .slotComplete _ _ _ | .slotDue _ _ | .arrival _ _ _ _
  | .take _ _ _ | .secondSlotRequest _ _ _ => true

end Sys2Proof
end

