-- ==== Sys2Proof/Decode.lean ====
section
/-! DEFINITION. From a stored command frame to the command it names, and back (R168, R170). -/

namespace Sys2Proof

/-- The command a frame of link `l` names. Every frame names one: a code outside the table is UNKNOWN_CODE (R170). -/
def decodeFrame (l : Link) (f : Frame) : Instr :=
  let t : Taken := ⟨l, f.seq, f.len, f.params⟩
  match f.code.toNat with
  | 0x10 => .install t
  | 0x11 => .retire t
  | 0x12 => .rebind t
  | 0x13 => .addDest t
  | 0x14 => .dropDest t
  | 0x15 => .mute t
  | 0x16 => .unmute t
  | 0x20 => .cancel t
  | 0x21 => .readTicket t
  | 0x28 => .lock t
  | 0x29 => .unlock t
  | 0x2A => .tune t
  | 0x30 => .readPatch t
  | 0x31 => .readTable t
  | 0x32 => .readSlotmap t
  | 0x33 => .readCounts t
  | 0x38 => .clearTable t
  | 0x40 => .portSet t
  | 0x41 => .portStart t
  | 0x42 => .portStop t
  | 0x43 => .readPort t
  | 0x50 => .readAlerts t
  | 0x51 => .ackAlerts t
  | 0x52 => .setAlertMask t
  | 0x60 => .setAux t
  | _ => .unknownCode f.code t

/-- The link and frame of a host command; `none` for the rows that are no command frame. -/
def encodeFrame : Instr → Option (Link × Frame)
  | .install t => some (t.link, ⟨0x10, t.seq, t.len, t.params⟩)
  | .retire t => some (t.link, ⟨0x11, t.seq, t.len, t.params⟩)
  | .rebind t => some (t.link, ⟨0x12, t.seq, t.len, t.params⟩)
  | .addDest t => some (t.link, ⟨0x13, t.seq, t.len, t.params⟩)
  | .dropDest t => some (t.link, ⟨0x14, t.seq, t.len, t.params⟩)
  | .mute t => some (t.link, ⟨0x15, t.seq, t.len, t.params⟩)
  | .unmute t => some (t.link, ⟨0x16, t.seq, t.len, t.params⟩)
  | .cancel t => some (t.link, ⟨0x20, t.seq, t.len, t.params⟩)
  | .readTicket t => some (t.link, ⟨0x21, t.seq, t.len, t.params⟩)
  | .lock t => some (t.link, ⟨0x28, t.seq, t.len, t.params⟩)
  | .unlock t => some (t.link, ⟨0x29, t.seq, t.len, t.params⟩)
  | .tune t => some (t.link, ⟨0x2A, t.seq, t.len, t.params⟩)
  | .readPatch t => some (t.link, ⟨0x30, t.seq, t.len, t.params⟩)
  | .readTable t => some (t.link, ⟨0x31, t.seq, t.len, t.params⟩)
  | .readSlotmap t => some (t.link, ⟨0x32, t.seq, t.len, t.params⟩)
  | .readCounts t => some (t.link, ⟨0x33, t.seq, t.len, t.params⟩)
  | .clearTable t => some (t.link, ⟨0x38, t.seq, t.len, t.params⟩)
  | .portSet t => some (t.link, ⟨0x40, t.seq, t.len, t.params⟩)
  | .portStart t => some (t.link, ⟨0x41, t.seq, t.len, t.params⟩)
  | .portStop t => some (t.link, ⟨0x42, t.seq, t.len, t.params⟩)
  | .readPort t => some (t.link, ⟨0x43, t.seq, t.len, t.params⟩)
  | .readAlerts t => some (t.link, ⟨0x50, t.seq, t.len, t.params⟩)
  | .ackAlerts t => some (t.link, ⟨0x51, t.seq, t.len, t.params⟩)
  | .setAlertMask t => some (t.link, ⟨0x52, t.seq, t.len, t.params⟩)
  | .setAux t => some (t.link, ⟨0x60, t.seq, t.len, t.params⟩)
  | .unknownCode code t => some (t.link, ⟨code, t.seq, t.len, t.params⟩)
  | .send _ | .fetch _ | .status _ | .auxWriteFirstByte _ | .auxWriteEnd _ | .statusRead _
  | .responseRead _ _ | .powerOnReset _ | .frameStartEdge _ _ | .midEdge _ _
  | .leaderFrameStart _ | .frameStart _ _ | .lockedExit _ | .dormancyChange _ _ | .lossTick
  | .lossExpiry _ | .slotComplete _ _ _ | .slotDue _ _ | .arrival _ _ _ _ | .take _ _ _
  | .secondSlotRequest _ _ _ => none

/-- The frame in the bytes of one write: the three header bytes and every declared parameter byte must have arrived;
the first 36 parameters are kept and later bytes are ignored (R151). `none` where the bytes stop short (TRUNCATED). -/
def frameOfBytes : List Byte → Option Frame
  | code :: seq :: len :: rest =>
    if rest.length < len.toNat then none
    else some ⟨code, seq, len, (rest.take len.toNat).take Config.storedParams⟩
  | _ => none

/-- No row of spec/opcode_table.json gives bits, so no word spells a command. -/
def decodeTableWord (_nbits _w : Nat) : Option Instr := none

end Sys2Proof
end

