-- ==== Sys2Proof/Machine/State.lean ====
section
/-! DEFINITION. Everything the manual gives the part to hold, as plain data, and its power-on values. -/

namespace Sys2Proof.Machine

/-! ## The Patch Table (R1 to R7) -/

inductive PatchState where
  | free | pending | live | retiring
  deriving DecidableEq, Repr

inductive Kind where
  | single | pair
  deriving DecidableEq, Repr

inductive OverflowPolicy where
  | keepOld | keepNew
  deriving DecidableEq, Repr

/-- FILL and REPEAT. -/
inductive UnderrunPolicy where
  | fill | repeatLast
  deriving DecidableEq, Repr

/-- How a destination lays samples into its slots (R6). -/
inductive Form where
  | one | twin | both | left | right
  deriving DecidableEq, Repr

/-- The take state's phase (R34). -/
inductive Phase where
  | waiting | dormant | unprimed | primed
  deriving DecidableEq, Repr

/-- The reason of a release-pending marker (R5). -/
inductive ReleaseReason where
  | drop | retire | taken
  deriving DecidableEq, Repr

/-- WAITING, OPEN, SHED, CLOSED (R28). -/
inductive Intake where
  | waiting | opened | shed | closed
  deriving DecidableEq, Repr

/-- The name of a destination within its patch: its port and its first slot (R4). -/
structure DestName where
  port : Port
  first : Slot
  deriving DecidableEq, Repr

/-- A destination record (R5). -/
structure Destination where
  port : Port
  form : Form
  first : Slot
  second : Option Slot
  phase : Phase
  marker : Option ReleaseReason
  muted : Bool
  underruns : Nat
  memory : Option Sample
  hold : Option Word
  deriving DecidableEq, Repr

/-- A source: one slot of a SINGLE patch, a left and a greater right slot of a PAIR patch (R2). -/
structure Source where
  port : Port
  left : Slot
  right : Option Slot
  deriving DecidableEq, Repr

/-- A hold queue entry and its owed set (R25). -/
structure Entry where
  sample : Sample
  owed : List DestName
  deriving DecidableEq, Repr

/-- A patch record (R1 to R4). -/
structure Patch where
  state : PatchState
  owner : Fin 8
  kind : Kind
  priority : Fin 4
  locked : Bool
  muteTarget : Bool
  source : Option Source
  pendingSource : Option Source
  intake : Intake
  depth : Nat
  startLevel : Nat
  overflow : OverflowPolicy
  underrun : UnderrunPolicy
  fill : Word
  queue : List Entry
  overflows : Nat
  threshold : Byte
  dests : List Destination
  deriving DecidableEq, Repr

/-- The FREE values of R7. -/
def Patch.free : Patch where
  state := .free
  owner := 0
  kind := .single
  priority := 0
  locked := false
  muteTarget := false
  source := none
  pendingSource := none
  intake := .closed
  depth := 1
  startLevel := 1
  overflow := .keepOld
  underrun := .fill
  fill := 0
  queue := []
  overflows := 0
  threshold := 0
  dests := []

/-! ## The slot maps (R16, R17) -/

/-- The role of an input slot. -/
inductive InRole where
  | single | left | right
  deriving DecidableEq, Repr

inductive ClaimKind where
  | holder | reservation
  deriving DecidableEq, Repr

/-- The one claim an input entry may carry (R17). -/
structure InClaim where
  kind : ClaimKind
  patch : PatchNo
  role : InRole
  deriving DecidableEq, Repr

/-- The holder of an output entry: a patch, its destination (named by the entry's port and `first`), and whether the
slot is that destination's second (R16). -/
structure OutHolder where
  patch : PatchNo
  first : Slot
  second : Bool
  deriving DecidableEq, Repr

/-- The reservation of an output entry: a patch and one of its destinations (R16). -/
structure OutResv where
  patch : PatchNo
  first : Slot
  deriving DecidableEq, Repr

/-- An output map entry (R16). -/
structure OutEntry where
  holder : Option OutHolder
  resv : Option OutResv
  deriving DecidableEq, Repr

/-! ## The Ticket Table (R52, R53) -/

inductive TicketState where
  | free | waiting | done
  deriving DecidableEq, Repr

/-- The seven staged edits. -/
inductive Op where
  | install | retire | rebind | addDest | dropDest | mute | unmute
  deriving DecidableEq, Repr

inductive RetireMode where
  | cut | drain
  deriving DecidableEq, Repr

/-- How a ticket ended (R52). -/
inductive Ending where
  | completed | cancelled | aborted
  deriving DecidableEq, Repr

/-- One part of a staged edit, with the port it waits on (R53). `d` names a destination of the subject; a transfer also
names the donor patch and the first slot of the donor's destination, which lies on the same port. -/
inductive Endpoint where
  | sourceActivation (p : Port)
  | sourceMove (p : Port)
  | destActivation (d : DestName)
  | transfer (d : DestName) (donor : PatchNo) (donorFirst : Slot)
  | release (d : DestName)
  | muteApply (p : Port)
  | intakeClose (p : Port)
  deriving DecidableEq, Repr

/-- A ticket record (R52). -/
structure Ticket where
  state : TicketState
  link : Link
  op : Option Op
  mode : Option RetireMode
  subject : Option PatchNo
  donors : List PatchNo
  total : Nat
  awaiting : List Endpoint
  ending : Option Ending
  orphan : Bool
  deriving DecidableEq, Repr

/-- The FREE values of R52. -/
def Ticket.free : Ticket where
  state := .free
  link := .main
  op := none
  mode := none
  subject := none
  donors := []
  total := 0
  awaiting := []
  ending := none
  orphan := false

/-! ## The ports (R98, R100) -/

inductive Role where
  | leader | follower
  deriving DecidableEq, Repr

inductive Framing where
  | pulse | split
  deriving DecidableEq, Repr

/-- A port configuration record (R98). -/
structure PortConfig where
  role : Role
  framing : Framing
  slots : Nat
  slotWidth : Nat
  sampleWidth : Nat
  dataDelay : Nat
  idleWord : Word
  lossTimeout : Nat
  divider : Nat
  deriving DecidableEq, Repr

/-- The power-on configuration (R98). -/
def PortConfig.powerOn : PortConfig where
  role := .follower
  framing := .pulse
  slots := 8
  slotWidth := 32
  sampleWidth := 24
  dataDelay := 1
  idleWord := 0
  lossTimeout := 48
  divider := 3

inductive PortState where
  | off | armed | locking | locked | lost
  deriving DecidableEq, Repr

/-- The half of a frame; PULSE frames stay in the first (R107). -/
inductive Half where
  | first | second
  deriving DecidableEq, Repr

/-- The frame position: bit clocks since the last frame start edge or, in the second half, the last mid edge (R100). -/
inductive FramePos where
  | notCounting
  | counting (half : Half) (clocks : Nat)
  deriving DecidableEq, Repr

/-- A left value waiting for its right half (R128). -/
structure Latch where
  patch : PatchNo
  value : Word
  deriving DecidableEq, Repr

/-- What the Clock Generator runs a started leader with (R101, R103). -/
structure LeaderClock where
  divider : Nat
  framing : Framing
  frameLength : Nat
  deriving DecidableEq, Repr

/-- DOUT: driven low, or carrying a span value already converted to the port's sample width (R126, R133). -/
inductive Lane where
  | low
  | carrying (w : Word)
  deriving DecidableEq, Repr

/-- One Port Engine and its share of the Clock Generator (R98, R100). `sync` is the last sample of SYNC, none before the first
sample after PORT-START (R105); `dueSlot` the output slot whose span is in progress; `tail` the level of DOUT at bit clock 0
of the frame or half in progress where that bit clock carries the last bit of the slot before it, else low (R123). -/
structure PortRec where
  config : PortConfig
  state : PortState
  pos : FramePos
  good : Nat
  consecutive : Nat
  bad : Bool
  frameErrors : Nat
  lossTimer : Option Nat
  latch : Option Latch
  clock : Option LeaderClock
  dueSlot : Option Slot
  dout : Lane
  sync : Option Bool
  tail : Bool
  deriving DecidableEq, Repr

/-- The power-on values of R98, R100, R122 and R138. -/
def PortRec.powerOn : PortRec where
  config := PortConfig.powerOn
  state := .off
  pos := .notCounting
  good := 0
  consecutive := 0
  bad := false
  frameErrors := 0
  lossTimer := none
  latch := none
  clock := none
  dueSlot := none
  dout := .low
  sync := none
  tail := false

/-! ## The links (R140, R151 to R167) -/

/-- The statuses of section 9.3. -/
inductive Status where
  | ok | accepted | busy | conflict | denied | tableFull | noTicket | badParam | badState
  | notFound | tooLate | badFrame
  deriving DecidableEq, Repr

/-- A response frame (R152). -/
structure Response where
  status : Status
  seq : Byte
  code : Byte
  payload : List Byte
  deriving DecidableEq, Repr

/-- The reason of the last-refused flag (R155). -/
inductive Refused where
  | full | truncated
  deriving DecidableEq, Repr

/-- One control link. `sent` holds the levels the part has given its output at the clocks of the link's last transaction (log
entry 9). -/
structure LinkRec where
  commands : List Frame
  responses : List Response
  lastRefused : Option Refused
  sent : List Bool
  deriving DecidableEq, Repr

/-- The power-on values of R167. -/
def LinkRec.powerOn : LinkRec := ⟨[], [], none, []⟩

/-- The aux rights record (R140). -/
structure AuxRights where
  enabled : Bool
  tag : Fin 8
  grant : BitVec 6
  deriving DecidableEq, Repr

/-- The main link's transaction in progress, SPI_CS_N low (R156): the bits of the byte being received, the selector once it
is complete, the complete bytes received after it, the bytes captured at the selector to be shifted out, and whether they are
the head response (R158). -/
structure Spi where
  bits : List Bool
  selector : Option Byte
  bytes : List Byte
  out : List Byte
  response : Bool
  deriving DecidableEq, Repr

/-- What the aux link takes part in on its bus (R160 to R162). -/
inductive BusPhase where
  /-- Nothing until the next start condition. -/
  | ignoring
  /-- A start condition has been seen, the address is being received; `afterEmpty` when a write of no data byte came before
  it in the same run of repeated starts. -/
  | address (afterEmpty : Bool)
  /-- A write to the part, with the bytes of the frame received so far; from the first on it holds a queue place. -/
  | writing (bytes : List Byte)
  /-- A write whose first data byte was refused FULL. -/
  | refused
  /-- A read from the part, with the bytes still to be shifted out, and whether they are the head response. -/
  | reading (out : List Byte) (response : Bool)
  deriving DecidableEq, Repr

/-- Who drives the acknowledge bit that comes next, if one does (R160). -/
inductive Ninth where
  | no | part | host
  deriving DecidableEq, Repr

/-- The aux link's bus: the levels the bus gives the lines, the level of I2C_SDA sampled at the last rise of I2C_SCL and not
yet taken as a bit, whether the part pulls I2C_SDA low, the phase, the bits of the byte in progress, and the acknowledge bit
that comes next (R160). -/
structure Bus where
  wire : Wire
  sample : Option Bool
  sdaLow : Bool
  phase : BusPhase
  bits : List Bool
  ninth : Ninth
  deriving DecidableEq, Repr

/-- The power-on values of R160 and R167: released, ignoring the bus. The bus is taken as idle (log entry 27). -/
def Bus.powerOn : Bus := ⟨⟨true, true⟩, none, false, .ignoring, [], .no⟩

/-! ## The Alert Unit (R184, R187) -/

/-- One link's five cause sets, each a mask of its members, and its mask of causes in the order of R184. -/
structure Alerts where
  ticketDone : BitVec 12
  evicted : BitVec 48
  trouble : BitVec 48
  portChange : BitVec 6
  frameError : BitVec 6
  masked : BitVec 5
  deriving DecidableEq, Repr

/-- The power-on values of R193. -/
def Alerts.powerOn : Alerts := ⟨0, 0, 0, 0, 0, 0⟩

/-! ## Events in flight -/

/-- An event one block has raised and another has yet to take. -/
inductive Event where
  | frameStart (p : Port) (entry : Bool)
  | lockedExit (p : Port)
  | dormancyChange (p : Port) (entered : Bool)
  | arrival (patch : PatchNo) (p : Port) (n : Slot) (x : Sample)
  | take (patch : PatchNo) (p : Port) (first : Slot)
  | secondSlotRequest (patch : PatchNo) (p : Port) (first : Slot)
  deriving DecidableEq, Repr

/-! ## The whole state -/

/-- The state of the part, the queue of commands waiting for it, and the events in flight between its blocks. -/
structure State where
  /-- commands waiting, first in first out -/
  pending : List Instr
  /-- events raised and not yet taken, oldest first -/
  raised : List Event
  patches : Vector Patch 48
  /-- the install-order list, oldest first (R15) -/
  order : List PatchNo
  /-- the list change count (R15) -/
  changes : Byte
  inMap : Vector (Vector (Option InClaim) 16) 6
  outMap : Vector (Vector OutEntry 16) 6
  tickets : Vector Ticket 12
  /-- the Patch Controller's view of which ports are LOCKED (R34) -/
  pcLocked : Vector Bool 6
  /-- the Sample Exchange's view of which ports are LOCKED (R41) -/
  sxLocked : Vector Bool 6
  ports : Vector PortRec 6
  mainLink : LinkRec
  auxLink : LinkRec
  lastServed : Link
  rights : AuxRights
  auxAddress : BitVec 7
  /-- the main link's transaction in progress, none while SPI_CS_N is high (R156, R167) -/
  spi : Option Spi
  /-- the aux link's transaction in progress and its bus (R160, R167) -/
  i2c : Bus
  mainAlerts : Alerts
  auxAlerts : Alerts
  deriving DecidableEq, Repr

/-- Reasons the part could stop with. The manual names none: every step has an outcome. -/
inductive Fault
  deriving DecidableEq, Repr

/-- Reasons for having no outcome. -/
inductive Refusal where
  /-- Raised by an arm of `exec` whose row has no meaning yet; no arm is one. Safe. -/
  | notModelled (mnemonic : String)
  deriving DecidableEq, Repr

/-- Power-on (R7, R15, R51, R52, R122, R138, R140, R167, R193). The address pins are taken as low (log entry 8). -/
def State.reset : State where
  pending := []
  raised := []
  patches := Vector.replicate 48 Patch.free
  order := []
  changes := 0
  inMap := Vector.replicate 6 (Vector.replicate 16 none)
  outMap := Vector.replicate 6 (Vector.replicate 16 ⟨none, none⟩)
  tickets := Vector.replicate 12 Ticket.free
  pcLocked := Vector.replicate 6 false
  sxLocked := Vector.replicate 6 false
  ports := Vector.replicate 6 PortRec.powerOn
  mainLink := LinkRec.powerOn
  auxLink := LinkRec.powerOn
  lastServed := .main
  rights := ⟨false, 1, 0⟩
  auxAddress := Config.auxBaseAddress
  spi := none
  i2c := Bus.powerOn
  mainAlerts := Alerts.powerOn
  auxAlerts := Alerts.powerOn

end Sys2Proof.Machine
end

