-- ==== Sys2Proof/Machine/Operands.lean ====
section
/-! DEFINITION. Reading the fields of a command frame and writing the fields of a payload (section 8.7, R168, R172). -/

namespace Sys2Proof

/-! ## The parameter bytes of a taken frame -/

/-- Parameter byte `k` of a taken frame. A frame that passed the first check has every byte its command names. -/
def Taken.param (t : Taken) (k : Nat) : Byte := t.params.getD k 0

/-- `n` parameter bytes from byte `k`. -/
def Taken.paramBytes (t : Taken) (k n : Nat) : List Byte := (t.params.drop k).take n

/-- The destination count, byte 15 of an INSTALL's descriptor. -/
def Taken.destCount (t : Taken) : Nat := (t.param 15).toNat

/-- The four bytes of the descriptor's destination `k`, from 0. -/
def Taken.destBytes (t : Taken) (k : Nat) : List Byte := t.paramBytes (16 + 4 * k) 4

end Sys2Proof

namespace Sys2Proof.Machine

/-! ## Numbers -/

/-- A small number as one byte. -/
def byte (n : Nat) : Byte := BitVec.ofNat 8 n

/-- An absent optional field (R168). -/
def absentByte : Byte := 0xFF

/-- A yes or no field (R168). -/
def boolByte (b : Bool) : Byte := if b then 1 else 0

/-- A count of 0 to 65535: two bytes, most significant first (R168). -/
def countBytes (n : Nat) : List Byte := [byte (n / 256), byte n]

/-- `k` bytes of a number, most significant first (R168: 32-bit values and masks of sets). -/
def bigEndian : Nat → Nat → List Byte
  | 0, _ => []
  | k + 1, n => byte (n / 256 ^ k) :: bigEndian k n

/-- A 32-bit value (R168). -/
def wordBytes (w : Word) : List Byte := bigEndian 4 w.toNat

/-- The number that bytes spell, most significant first. -/
def fromBigEndian (bs : List Byte) : Nat := bs.foldl (fun a b => a * 256 + b.toNat) 0

/-- The 32-bit value that four bytes spell. -/
def wordOf (bs : List Byte) : Word := BitVec.ofNat 32 (fromBigEndian bs)

/-- The bits of a byte as both links carry it, most significant first (R156, R160). -/
def byteBits (b : Byte) : List Bool := (List.range 8).map fun i => b.getLsbD (7 - i)

/-- The byte that eight bits spell, most significant first. -/
def byteOfBits (bits : List Bool) : Byte := BitVec.ofNat 8 (bits.foldl (fun a b => 2 * a + b.toNat) 0)

/-- A list: a count byte, then its items (R168). -/
def listBytes {α : Type} (item : α → List Byte) (l : List α) : List Byte := byte l.length :: l.flatMap item

/-! ## Ranges (R172) -/

/-- A patch number in range (R172). -/
def inPatch (b : Byte) : Bool := b.toNat < 48
/-- A ticket number in range (R172). -/
def inTicket (b : Byte) : Bool := b.toNat < 12
/-- A port in range (R172). -/
def inPort (b : Byte) : Bool := b.toNat < 6
/-- A slot that must be present (R172). -/
def inSlot (b : Byte) : Bool := b.toNat < 16
/-- A slot that may be absent (R172). -/
def inSlotOrAbsent (b : Byte) : Bool := inSlot b || b == absentByte
/-- A yes or no field (R172). -/
def inBool (b : Byte) : Bool := b.toNat < 2

/-- The patch a byte in range names. -/
def patchOf (b : Byte) : PatchNo := Fin.ofNat 48 b.toNat
/-- The ticket a byte in range names. -/
def ticketOf (b : Byte) : TicketNo := Fin.ofNat 12 b.toNat
/-- The slot a byte in range names. -/
def slotOf (b : Byte) : Slot := Fin.ofNat 16 b.toNat
/-- The slot a byte names, absent for 0xFF. -/
def slotOf? (b : Byte) : Option Slot := if inSlot b then some (slotOf b) else none

/-! ## Enumerations: the position, from 0, in the list where the field is specified (R168) -/

def portByte : Port → Byte
  | .A => 0 | .B => 1 | .C => 2 | .D => 3 | .E => 4 | .F => 5

/-- The port a byte in range names. -/
def portOf (b : Byte) : Port :=
  match b.toNat with
  | 0 => .A | 1 => .B | 2 => .C | 3 => .D | 4 => .E | _ => .F

def linkByte : Link → Byte
  | .main => 0 | .aux => 1

def patchStateByte : PatchState → Byte
  | .free => 0 | .pending => 1 | .live => 2 | .retiring => 3

def kindByte : Kind → Byte
  | .single => 0 | .pair => 1

def kindOf (b : Byte) : Kind := if b = 0 then .single else .pair

def overflowByte : OverflowPolicy → Byte
  | .keepOld => 0 | .keepNew => 1

def overflowOf (b : Byte) : OverflowPolicy := if b = 0 then .keepOld else .keepNew

def underrunByte : UnderrunPolicy → Byte
  | .fill => 0 | .repeatLast => 1

def underrunOf (b : Byte) : UnderrunPolicy := if b = 0 then .fill else .repeatLast

def formByte : Form → Byte
  | .one => 0 | .twin => 1 | .both => 2 | .left => 3 | .right => 4

def formOf (b : Byte) : Form :=
  match b.toNat with
  | 0 => .one | 1 => .twin | 2 => .both | 3 => .left | _ => .right

def phaseByte : Phase → Byte
  | .waiting => 0 | .dormant => 1 | .unprimed => 2 | .primed => 3

def intakeByte : Intake → Byte
  | .waiting => 0 | .opened => 1 | .shed => 2 | .closed => 3

/-- The release marker of READ-PATCH: 0 none, 1 DROP, 2 RETIRE, 3 TAKEN. -/
def markerByte : Option ReleaseReason → Byte
  | none => 0 | some .drop => 1 | some .retire => 2 | some .taken => 3

def inRoleByte : InRole → Byte
  | .single => 0 | .left => 1 | .right => 2

def ticketStateByte : TicketState → Byte
  | .free => 0 | .waiting => 1 | .done => 2

def opByte : Op → Byte
  | .install => 0 | .retire => 1 | .rebind => 2 | .addDest => 3 | .dropDest => 4 | .mute => 5 | .unmute => 6

def modeByte : RetireMode → Byte
  | .cut => 0 | .drain => 1

def modeOf (b : Byte) : RetireMode := if b = 0 then .cut else .drain

def endingByte : Ending → Byte
  | .completed => 0 | .cancelled => 1 | .aborted => 2

def roleByte : Role → Byte
  | .leader => 0 | .follower => 1

def roleOf (b : Byte) : Role := if b = 0 then .leader else .follower

def framingByte : Framing → Byte
  | .pulse => 0 | .split => 1

def framingOf (b : Byte) : Framing := if b = 0 then .pulse else .split

def portStateByte : PortState → Byte
  | .off => 0 | .armed => 1 | .locking => 2 | .locked => 3 | .lost => 4

/-- The status values of section 8.7. -/
def statusByte : Status → Byte
  | .ok => 0x01 | .accepted => 0x02 | .busy => 0x10 | .conflict => 0x11 | .denied => 0x12
  | .tableFull => 0x13 | .noTicket => 0x14 | .badParam => 0x20 | .badState => 0x21
  | .notFound => 0x22 | .tooLate => 0x23 | .badFrame => 0x24

/-- Last-refused in a status block: 0 clear, 1 FULL, 2 TRUNCATED. -/
def refusedByte : Option Refused → Byte
  | none => 0 | some .full => 1 | some .truncated => 2

/-- An optional field of one byte. -/
def optByte {α : Type} (f : α → Byte) : Option α → Byte
  | none => absentByte
  | some a => f a

def slotByte (n : Slot) : Byte := byte n.val
def patchByte (n : PatchNo) : Byte := byte n.val
def ticketByte (n : TicketNo) : Byte := byte n.val

/-- The three transactions of the main link (R156). -/
inductive Selector where
  | send | fetch | status
  deriving DecidableEq, Repr

/-- The selector byte of a transaction (section 8.7). -/
def selectorByte : Selector → Byte
  | .send => 0x01 | .fetch => 0x02 | .status => 0x03

/-- The transaction a selector byte names, if any (R156, section 8.7). -/
def selectorOf (b : Byte) : Option Selector :=
  match b.toNat with
  | 0x01 => some .send
  | 0x02 => some .fetch
  | 0x03 => some .status
  | _ => none

/-- A response frame on the wire (section 8.7). -/
def Response.bytes (r : Response) : List Byte :=
  statusByte r.status :: r.seq :: r.code :: byte r.payload.length :: r.payload

/-! ## Descriptors -/

/-- A requested destination: port, form and slots. -/
structure DestSpec where
  port : Port
  form : Form
  first : Slot
  second : Option Slot
  deriving DecidableEq, Repr

/-- The name the destination will have (R4). -/
def DestSpec.name (d : DestSpec) : DestName := ⟨d.port, d.first⟩

/-- The output slots it names. -/
def DestSpec.slots (d : DestSpec) : List Slot := d.first :: d.second.toList

/-- A destination in four bytes: port, form, first slot, second slot (section 8.7). -/
def destSpecOf (bs : List Byte) : DestSpec :=
  ⟨portOf (bs.getD 0 0), formOf (bs.getD 1 0), slotOf (bs.getD 2 0), slotOf? (bs.getD 3 0)⟩

/-- Each field of a destination in its range (R172). -/
def destFieldsOk (bs : List Byte) : Bool :=
  inPort (bs.getD 0 0) && decide ((bs.getD 1 0).toNat < 5) && inSlot (bs.getD 2 0) && inSlotOrAbsent (bs.getD 3 0)

/-- The forms with a second slot (R6). -/
def Form.hasSecond : Form → Bool
  | .twin | .both => true
  | .one | .left | .right => false

/-- The forms a kind allows (R6). -/
def Form.matchesKind : Form → Kind → Bool
  | .one, .single | .twin, .single => true
  | .both, .pair | .left, .pair | .right, .pair => true
  | _, _ => false

/-- The second slot is greater than the first for TWIN and BOTH and absent for the other forms (R6, R173). -/
def DestSpec.orderOk (d : DestSpec) : Bool :=
  match d.second with
  | some q => d.form.hasSecond && decide (d.first < q)
  | none => !d.form.hasSecond

/-- A source's slots fit a kind: one slot for SINGLE, a left and a greater right slot for PAIR (R2, R173). -/
def sourceFits (k : Kind) (left : Slot) (right : Option Slot) : Bool :=
  match k, right with
  | .single, none => true
  | .pair, some r => decide (left < r)
  | _, _ => false

/-- The INSTALL patch descriptor (section 8.7). -/
structure Descriptor where
  kind : Kind
  owner : Fin 8
  priority : Fin 4
  depth : Nat
  startLevel : Nat
  overflow : OverflowPolicy
  underrun : UnderrunPolicy
  take : Bool
  mayEvict : Bool
  fill : Word
  source : Source
  dests : List DestSpec
  deriving DecidableEq, Repr

/-- The descriptor in an INSTALL's parameters. -/
def descriptorOf (t : Taken) : Descriptor where
  kind := kindOf (t.param 0)
  owner := Fin.ofNat 8 (t.param 1).toNat
  priority := Fin.ofNat 4 (t.param 2).toNat
  depth := (t.param 3).toNat
  startLevel := (t.param 4).toNat
  overflow := overflowOf (t.param 5)
  underrun := underrunOf (t.param 6)
  take := (t.param 7).getLsbD 0
  mayEvict := (t.param 7).getLsbD 1
  fill := wordOf (t.paramBytes 8 4)
  source := ⟨portOf (t.param 12), slotOf (t.param 13), slotOf? (t.param 14)⟩
  dests := (List.range t.destCount).map fun k => destSpecOf (t.destBytes k)

/-- Each field of the descriptor in its range (R66, R172). -/
def descriptorFieldsOk (t : Taken) : Bool :=
  decide ((t.param 0).toNat < 2) && decide ((t.param 1).toNat < 8) && decide ((t.param 2).toNat < 4)
  && decide (1 ≤ (t.param 3).toNat ∧ (t.param 3).toNat ≤ 4)
  && decide (1 ≤ (t.param 4).toNat ∧ (t.param 4).toNat ≤ (t.param 3).toNat)
  && decide ((t.param 5).toNat < 2) && decide ((t.param 6).toNat < 2) && decide ((t.param 7).toNat < 4)
  && inPort (t.param 12) && inSlot (t.param 13) && inSlotOrAbsent (t.param 14)
  && decide (1 ≤ t.destCount ∧ t.destCount ≤ 4)
  && (List.range t.destCount).all fun k => destFieldsOk (t.destBytes k)

/-- The output slots a list of destinations names, each with its port. -/
def namedSlots (ds : List DestSpec) : List (Port × Slot) := ds.flatMap fun d => d.slots.map fun n => (d.port, n)

/-- The relations among the descriptor's fields (R66, R173). -/
def Descriptor.relationsOk (d : Descriptor) : Bool :=
  sourceFits d.kind d.source.left d.source.right
  && (d.dests.all fun x => x.form.matchesKind d.kind && x.orderOk)
  && decide (namedSlots d.dests).Nodup

/-- The configuration record in a PORT-SET's parameters, from byte 1 (R99, section 8.7). -/
def portConfigOf (t : Taken) : PortConfig where
  role := roleOf (t.param 1)
  framing := framingOf (t.param 2)
  slots := (t.param 3).toNat
  slotWidth := (t.param 4).toNat
  sampleWidth := (t.param 5).toNat
  dataDelay := (t.param 6).toNat
  idleWord := wordOf (t.paramBytes 7 4)
  lossTimeout := (t.param 11).toNat
  divider := (t.param 12).toNat

/-- The checks of R99. -/
def portConfigOk (t : Taken) : Bool :=
  inPort (t.param 0) && decide ((t.param 1).toNat < 2) && decide ((t.param 2).toNat < 2)
  && decide (1 ≤ (t.param 3).toNat ∧ (t.param 3).toNat ≤ 16)
  && (t.param 2 == 0 || decide (2 ≤ (t.param 3).toNat ∧ (t.param 3).toNat % 2 = 0))
  && decide ((t.param 4).toNat = 16 ∨ (t.param 4).toNat = 24 ∨ (t.param 4).toNat = 32)
  && decide (8 ≤ (t.param 5).toNat ∧ (t.param 5).toNat ≤ (t.param 4).toNat)
  && decide ((t.param 6).toNat < 2) && decide (1 ≤ (t.param 11).toNat) && decide ((t.param 12).toNat < 128)

/-- The configuration record as READ-PORT reports it: the fields in the order of R98. -/
def PortConfig.bytes (c : PortConfig) : List Byte :=
  [roleByte c.role, framingByte c.framing, byte c.slots, byte c.slotWidth, byte c.sampleWidth, byte c.dataDelay]
  ++ wordBytes c.idleWord ++ [byte c.lossTimeout, byte c.divider]

end Sys2Proof.Machine
end

