-- ==== Sys2Proof/Machine/Ops.lean ====
section
/-! DEFINITION. The named operations over the part's records: tables and views, the slot maps, freeing a record, events in
flight. -/

namespace Sys2Proof.Machine

/-! ## Cells of a table -/

/-- Entry `i` of a table. -/
def cell {α : Type} {n : Nat} (v : Vector α n) (i : Fin n) : α := v[i.val]

/-- The table with entry `i` replaced. -/
def putCell {α : Type} {n : Nat} (v : Vector α n) (i : Fin n) (x : α) : Vector α n := v.set i.val x

/-- A port's place in a table: A is 0. -/
def portIdx : Port → Fin 6
  | .A => 0 | .B => 1 | .C => 2 | .D => 3 | .E => 4 | .F => 5

/-- The ports, A first. -/
def allPorts : List Port := [.A, .B, .C, .D, .E, .F]

/-! ## Records of the state -/

def State.patch (s : State) (n : PatchNo) : Patch := cell s.patches n

def State.setPatch (s : State) (n : PatchNo) (r : Patch) : State := { s with patches := putCell s.patches n r }

def State.modPatch (s : State) (n : PatchNo) (f : Patch → Patch) : State := s.setPatch n (f (s.patch n))

/-- One change made to every patch record. -/
def State.mapPatches (s : State) (f : Patch → Patch) : State := { s with patches := s.patches.map f }

def State.ticket (s : State) (t : TicketNo) : Ticket := cell s.tickets t

def State.setTicket (s : State) (t : TicketNo) (k : Ticket) : State := { s with tickets := putCell s.tickets t k }

def State.port (s : State) (p : Port) : PortRec := cell s.ports (portIdx p)

def State.setPort (s : State) (p : Port) (r : PortRec) : State := { s with ports := putCell s.ports (portIdx p) r }

def State.modPort (s : State) (p : Port) (f : PortRec → PortRec) : State := s.setPort p (f (s.port p))

def State.inEntry (s : State) (p : Port) (n : Slot) : Option InClaim := cell (cell s.inMap (portIdx p)) n

def State.setIn (s : State) (p : Port) (n : Slot) (e : Option InClaim) : State :=
  { s with inMap := putCell s.inMap (portIdx p) (putCell (cell s.inMap (portIdx p)) n e) }

def State.outEntry (s : State) (p : Port) (n : Slot) : OutEntry := cell (cell s.outMap (portIdx p)) n

def State.setOut (s : State) (p : Port) (n : Slot) (e : OutEntry) : State :=
  { s with outMap := putCell s.outMap (portIdx p) (putCell (cell s.outMap (portIdx p)) n e) }

/-- Whether the Patch Controller holds a port as LOCKED (R34). -/
def State.pcHolds (s : State) (p : Port) : Bool := cell s.pcLocked (portIdx p)

def State.setPc (s : State) (p : Port) (b : Bool) : State := { s with pcLocked := putCell s.pcLocked (portIdx p) b }

/-- Whether the Sample Exchange holds a port as LOCKED (R41). -/
def State.sxHolds (s : State) (p : Port) : Bool := cell s.sxLocked (portIdx p)

def State.setSx (s : State) (p : Port) (b : Bool) : State := { s with sxLocked := putCell s.sxLocked (portIdx p) b }

def State.link (s : State) : Link → LinkRec
  | .main => s.mainLink
  | .aux => s.auxLink

def State.setLink (s : State) : Link → LinkRec → State
  | .main, r => { s with mainLink := r }
  | .aux, r => { s with auxLink := r }

def State.modLink (s : State) (l : Link) (f : LinkRec → LinkRec) : State := s.setLink l (f (s.link l))

/-! ## Events in flight (R24, R118) -/

/-- A block raises an event. -/
def State.raise (s : State) (e : Event) : State := { s with raised := s.raised ++ [e] }

/-- An event is taken: the oldest equal one leaves the events in flight. -/
def State.consume (s : State) (e : Event) : State := { s with raised := s.raised.erase e }

/-- The port an event concerns. -/
def Event.port : Event → Port
  | .frameStart p _ | .lockedExit p | .dormancyChange p _ | .arrival _ p _ _ | .take _ p _ | .secondSlotRequest _ p _ => p

/-- An arrival. -/
def Event.isArrival : Event → Bool
  | .arrival _ _ _ _ => true
  | .frameStart _ _ | .lockedExit _ | .dormancyChange _ _ | .take _ _ _ | .secondSlotRequest _ _ _ => false

/-- A take or a second-slot request. -/
def Event.isRequest : Event → Bool
  | .take _ _ _ | .secondSlotRequest _ _ _ => true
  | .frameStart _ _ | .lockedExit _ | .dormancyChange _ _ | .arrival _ _ _ _ => false

/-- A dormancy change. -/
def Event.isDormancy : Event → Bool
  | .dormancyChange _ _ => true
  | .frameStart _ _ | .lockedExit _ | .arrival _ _ _ _ | .take _ _ _ | .secondSlotRequest _ _ _ => false

/-! ## Counts -/

/-- A 16-bit count rises by 1 and stays at 65535 (R44, R45, R112). -/
def countUp (c : Nat) : Nat := if c < Config.countMax then c + 1 else c

/-! ## The install-order list (R15) -/

/-- A record enters the list at its end; the change count rises by 1. -/
def State.listAppend (s : State) (n : PatchNo) : State :=
  { s with order := s.order ++ [n], changes := s.changes + 1 }

/-- A record leaves the list; the change count rises by 1. -/
def State.listRemove (s : State) (n : PatchNo) : State :=
  if n ∈ s.order then { s with order := s.order.erase n, changes := s.changes + 1 } else s

/-! ## The input map (R17 to R19) -/

/-- A source's slots with their roles. -/
def Source.roles (src : Source) : List (Slot × InRole) :=
  match src.right with
  | none => [(src.left, .single)]
  | some r => [(src.left, .left), (r, .right)]

/-- The source's entries get claims of one kind for a patch, both halves together (R17, R18). -/
def State.claimSource (s : State) (n : PatchNo) (kind : ClaimKind) (src : Source) : State :=
  src.roles.foldl (fun s x => s.setIn src.port x.1 (some ⟨kind, n, x.2⟩)) s

/-- Every claim of the input map that `gone` picks is removed. -/
def State.dropIn (s : State) (gone : InClaim → Bool) : State :=
  { s with inMap := s.inMap.map fun row => row.map fun e => e.filter fun c => !gone c }

/-! ## The output map (R16, R18, R19) -/

/-- A destination's entries become holders of a patch; its own reservation there is gone (R18, R57). -/
def State.holdDest (s : State) (n : PatchNo) (d : Destination) : State :=
  let place (s : State) (q : Slot) (second : Bool) : State :=
    s.setOut d.port q ⟨some ⟨n, d.first, second⟩, (s.outEntry d.port q).resv.filter fun r => r.patch ≠ n⟩
  match d.second with
  | none => place s d.first false
  | some q => place (place s d.first false) q true

/-- A destination's entries are reserved for a patch beside whatever holder they carry (R18, R85). -/
def State.reserveDest (s : State) (n : PatchNo) (d : Destination) : State :=
  let place (s : State) (q : Slot) : State := s.setOut d.port q ⟨(s.outEntry d.port q).holder, some ⟨n, d.first⟩⟩
  match d.second with
  | none => place s d.first
  | some q => place (place s d.first) q

/-- Holders and reservations of the output map that the two tests pick, by port, are removed. -/
def State.dropOut (s : State) (goneHolder : Port → OutHolder → Bool) (goneResv : Port → OutResv → Bool) : State :=
  { s with outMap := allPorts.foldl (fun m p =>
      putCell m (portIdx p) ((cell m (portIdx p)).map fun e =>
        ⟨e.holder.filter fun h => !goneHolder p h, e.resv.filter fun r => !goneResv p r⟩)) s.outMap }

/-- The holders of one destination leave the map, first and second together (R19). -/
def State.dropHolders (s : State) (n : PatchNo) (nm : DestName) : State :=
  s.dropOut (fun p h => p = nm.port && h.patch = n && h.first = nm.first) (fun _ _ => false)

/-- Every reservation of a patch in either map is removed (R18). -/
def State.dropReservations (s : State) (n : PatchNo) : State :=
  (s.dropIn fun c => c.kind = .reservation && c.patch = n).dropOut (fun _ _ => false) (fun _ r => r.patch = n)

/-! ## Freeing a record (R12) -/

/-- The latch of every port that names the patch becomes absent (R12, R69, R79, R128). -/
def State.clearLatch (s : State) (n : PatchNo) : State :=
  { s with ports := s.ports.map fun (r : PortRec) =>
      { r with latch := r.latch.filter fun l => l.patch ≠ n } }

/-- A freed patch leaves the donor list of every WAITING ticket (R12). -/
def State.dropDonor (s : State) (n : PatchNo) : State :=
  { s with tickets := s.tickets.map fun (k : Ticket) =>
      if k.state = .waiting then { k with donors := k.donors.filter fun d => d ≠ n } else k }

/-- The one action that frees a record, whatever transition makes it FREE (R12). -/
def State.freePatch (s : State) (n : PatchNo) : State :=
  let s := s.dropIn fun c => c.patch = n
  let s := s.dropOut (fun _ h => h.patch = n) (fun _ r => r.patch = n)
  let s := s.clearLatch n
  let s := s.listRemove n
  let s := s.dropDonor n
  s.setPatch n Patch.free

/-- The lowest-numbered FREE record (R7). -/
def State.freeRecord? (s : State) : Option PatchNo :=
  (List.finRange 48).find? fun n => (s.patch n).state = .free

/-! ## Tickets: who is busy, what is free (R54, R64) -/

/-- The lowest-numbered FREE ticket (R55). -/
def State.freeTicket? (s : State) : Option TicketNo :=
  (List.finRange 12).find? fun t => (s.ticket t).state = .free

/-- The tickets that belong to the aux link: not FREE and issued by it, orphans included (R54). -/
def State.auxTicketCount (s : State) : Nat :=
  (List.finRange 12).countP fun t => (s.ticket t).state ≠ .free && (s.ticket t).link = .aux

/-- A WAITING ticket names the patch, as subject or as donor (R64). -/
def Ticket.names (k : Ticket) (n : PatchNo) : Bool :=
  k.state = .waiting && (k.subject = some n || k.donors.contains n)

/-- A patch is busy while a WAITING ticket names it (R64). -/
def State.busy (s : State) (n : PatchNo) : Bool :=
  (List.finRange 12).any fun t => (s.ticket t).names n

/-- A patch is a donor of a WAITING ticket (R88). -/
def State.isDonor (s : State) (n : PatchNo) : Bool :=
  (List.finRange 12).any fun t => (s.ticket t).state = .waiting && (s.ticket t).donors.contains n

/-- The WAITING ticket that names a patch (R21). -/
def State.waitingTicket? (s : State) (n : PatchNo) : Option TicketNo :=
  (List.finRange 12).find? fun t => (s.ticket t).names n

/-- A patch is aux-owned while its owner tag is the aux tag in force (R139). -/
def State.auxOwned (s : State) (n : PatchNo) : Bool := (s.patch n).owner = s.rights.tag

/-- A port lies in the grant mask (R140). -/
def AuxRights.grants (a : AuxRights) (p : Port) : Bool := a.grant.getLsbD (portIdx p).val

end Sys2Proof.Machine
end

