-- ==== Sys2Proof/Machine/Flags.lean ====
section
/-! DEFINITION. The Alert Unit: cause sets, masks, alert lines, routing and the threshold check (chapter 10). -/

namespace Sys2Proof.Machine

/-- A set with member `k` added. -/
def addMember {n : Nat} (v : BitVec n) (k : Nat) : BitVec n := v ||| (1#n <<< k)

/-- A set without member `k`. -/
def dropMember {n : Nat} (v : BitVec n) (k : Nat) : BitVec n := v &&& ~~~(1#n <<< k)

/-- A member of a cause set (R184). -/
inductive Posting where
  | ticketDone (t : TicketNo)
  | evicted (n : PatchNo)
  | trouble (n : PatchNo)
  | portChange (p : Port)
  | frameError (p : Port)
  deriving DecidableEq, Repr

/-- Posting adds the member; one already present leaves the set unchanged (R184). -/
def Alerts.add (a : Alerts) : Posting → Alerts
  | .ticketDone t => { a with ticketDone := addMember a.ticketDone t.val }
  | .evicted n => { a with evicted := addMember a.evicted n.val }
  | .trouble n => { a with trouble := addMember a.trouble n.val }
  | .portChange p => { a with portChange := addMember a.portChange (portIdx p).val }
  | .frameError p => { a with frameError := addMember a.frameError (portIdx p).val }

/-- The line is asserted while some cause set is unmasked and non-empty (R187). -/
def Alerts.line (a : Alerts) : Bool :=
  (a.ticketDone ≠ 0 && !a.masked.getLsbD 0) || (a.evicted ≠ 0 && !a.masked.getLsbD 1)
  || (a.trouble ≠ 0 && !a.masked.getLsbD 2) || (a.portChange ≠ 0 && !a.masked.getLsbD 3)
  || (a.frameError ≠ 0 && !a.masked.getLsbD 4)

/-- The five sets emptied, the mask kept (R165, R166). -/
def Alerts.empty (a : Alerts) : Alerts := { Alerts.powerOn with masked := a.masked }

/-- The five sets as READ-ALERTS and ACK-ALERTS report them (R188). -/
def Alerts.setBytes (a : Alerts) : List Byte :=
  bigEndian 2 a.ticketDone.toNat ++ bigEndian 6 a.evicted.toNat ++ bigEndian 6 a.trouble.toNat
  ++ bigEndian 1 a.portChange.toNat ++ bigEndian 1 a.frameError.toNat

def State.alerts (s : State) : Link → Alerts
  | .main => s.mainAlerts
  | .aux => s.auxAlerts

def State.setAlerts (s : State) : Link → Alerts → State
  | .main, a => { s with mainAlerts := a }
  | .aux, a => { s with auxAlerts := a }

/-- ALERT_M and ALERT_A: whether the line is asserted (R187). -/
def State.alertLine (s : State) (l : Link) : Bool := (s.alerts l).line

/-- A posting to a link; while the aux link is disabled its sets take no member and the main link's set takes it (R186). -/
def State.post (s : State) (l : Link) (x : Posting) : State :=
  let l := if l = .aux && s.rights.enabled then Link.aux else Link.main
  s.setAlerts l ((s.alerts l).add x)

/-- The link an owner tag routes EVICTED and TROUBLE to: the aux link for the aux tag in force, else the main link (R186). -/
def State.ownerLink (s : State) (tag : Fin 8) : Link := if tag = s.rights.tag then .aux else .main

/-- EVICTED for a patch, routed by the owner tag it holds now (R186). -/
def State.postEvicted (s : State) (n : PatchNo) : State := s.post (s.ownerLink (s.patch n).owner) (.evicted n)

/-- PORT_CHANGE or FRAME_ERROR: to the main link, and to the aux link while it is enabled and the port is granted (R186). -/
def State.postPort (s : State) (p : Port) (x : Posting) : State :=
  let s := s.post .main x
  if s.rights.enabled && s.rights.grants p then s.post .aux x else s

/-- The threshold check of an increment from `old` to `new` of one of the patch's counts (R191). -/
def State.checkThreshold (s : State) (n : PatchNo) (old new : Nat) : State :=
  let r := s.patch n
  if new ≠ old ∧ r.threshold ≠ 0 ∧ new = r.threshold.toNat then s.post (s.ownerLink r.owner) (.trouble n) else s

end Sys2Proof.Machine
end

