-- ==== Sys2Proof/Machine/Exchange.lean ====
section
/-! DEFINITION. The Sample Exchange: hold queues, owed sets, intake, phases, takes (chapter 2). The operations on one patch
record come first, then the same on the state. -/

namespace Sys2Proof.Machine

/-! ## Destinations of a record -/

def Destination.name (d : Destination) : DestName := ⟨d.port, d.first⟩

/-- The destination reads the patch: UNPRIMED or PRIMED (R34). -/
def Destination.reading (d : Destination) : Bool := d.phase = .unprimed || d.phase = .primed

/-- The output slots a destination claims (R16). -/
def Destination.slots (d : Destination) : List Slot := d.first :: d.second.toList

/-- The destination of a name (R4). -/
def Patch.dest? (r : Patch) (nm : DestName) : Option Destination := r.dests.find? fun d => d.name = nm

/-- A change to the destination of a name. -/
def Patch.modDest (r : Patch) (nm : DestName) (f : Destination → Destination) : Patch :=
  { r with dests := r.dests.map fun d => if d.name = nm then f d else d }

/-- The number of entries owed to a destination. -/
def Patch.owedCount (r : Patch) (nm : DestName) : Nat := r.queue.countP fun e => e.owed.contains nm

/-- A destination's position in the list, from 0 (R4). -/
def Patch.position (r : Patch) (nm : DestName) : Nat := r.dests.findIdx fun d => d.name = nm

/-! ## Owed sets (R26, R27) -/

/-- The picked destinations leave every owed set, and the entries so emptied leave the queue (R27). -/
def unowe (gone : DestName → Bool) (q : List Entry) : List Entry :=
  (q.map fun e => { e with owed := e.owed.filter fun nm => !gone nm }).filter fun e => !e.owed.isEmpty

/-- A destination leaves the owed set of the oldest entry owed to it, which leaves the queue if emptied (R27, R40). -/
def takeOldest (nm : DestName) : List Entry → List Entry
  | [] => []
  | e :: q =>
    if e.owed.contains nm then
      let owed := e.owed.filter fun x => x ≠ nm
      if owed.isEmpty then q else { e with owed := owed } :: q
    else e :: takeOldest nm q

/-- A destination leaves its patch: its owed-set memberships, its take state and its place in the list (R19, R37). -/
def Patch.release (r : Patch) (nm : DestName) : Patch :=
  { r with queue := unowe (fun x => x = nm) r.queue, dests := r.dests.filter fun d => d.name ≠ nm }

/-! ## Dormancy changes (R35, R36) -/

/-- A LOCKED entry of a port: its DORMANT destinations become UNPRIMED (R35). -/
def Patch.wake (r : Patch) (p : Port) : Patch :=
  { r with dests := r.dests.map fun d =>
      if d.port = p ∧ d.phase = .dormant then { d with phase := .unprimed, memory := none, hold := none } else d }

/-- A LOCKED exit of a port: its UNPRIMED and PRIMED destinations become DORMANT and leave every owed set; their underrun
count and mute-applied flag are kept (R36). -/
def Patch.sleep (r : Patch) (p : Port) : Patch :=
  { r with
    queue := unowe (fun x => x.port = p) r.queue
    dests := r.dests.map fun d =>
      if d.port = p ∧ d.reading then { d with phase := .dormant, memory := none, hold := none } else d }

/-! ## Frame starts (R29, R43) -/

/-- The recovery test of a SHED intake: at most half the depth, rounded down (R29). -/
def Patch.recover (r : Patch) (p : Port) : Patch :=
  if r.intake = .shed ∧ (r.source.map Source.port) = some p ∧ r.queue.length ≤ r.depth / 2 then
    { r with intake := .opened }
  else r

/-- The current-pair holds of the destinations on a port are cleared (R43). -/
def Patch.clearHolds (r : Patch) (p : Port) : Patch :=
  { r with dests := r.dests.map fun d => if d.port = p then { d with hold := none } else d }

/-! ## Arrivals (R26, R31 to R33) -/

/-- The destinations that are owed an arrival: those UNPRIMED or PRIMED (R26), each once (R25). -/
def Patch.readers (r : Patch) : List DestName := ((r.dests.filter Destination.reading).map Destination.name).dedup

/-- An arrival that belongs to the patch, by the first condition of R31 that holds. -/
def Patch.accept (r : Patch) (x : Sample) : Patch :=
  if r.intake ≠ .opened then r
  else if r.readers.isEmpty then r
  else if r.queue.length < r.depth then { r with queue := r.queue ++ [⟨x, r.readers⟩] }
  else
    match r.overflow with
    | .keepOld => { r with overflows := countUp r.overflows, intake := .shed }
    | .keepNew => { r with overflows := countUp r.overflows, queue := r.queue.tail ++ [⟨x, r.readers⟩] }

/-! ## Takes (R38 to R43) -/

/-- The left value of a pair, or the one value. -/
def leftOf : Sample → Word
  | .single v | .pair v _ => v

/-- The right value of a pair, or the one value. -/
def rightOf : Sample → Word
  | .single v | .pair _ v => v

/-- What a first-slot due sends, what it leaves for the second slot, and the REPEAT memory after it. -/
structure Sent where
  value : Word
  hold : Option Word
  memory : Option Sample
  deriving DecidableEq, Repr

/-- A delivery by form (table of R40); zero in place of every delivered value while muted (R42). -/
def Destination.deliver (d : Destination) (x : Sample) : Sent :=
  let shown (v : Word) : Word := if d.muted then 0 else v
  let l := shown (leftOf x)
  let r := shown (rightOf x)
  match d.form with
  | .one => ⟨l, none, some (.single l)⟩
  | .twin => ⟨l, some l, some (.single l)⟩
  | .both => ⟨l, some r, some (.pair l r)⟩
  | .left => ⟨l, none, some (.single l)⟩
  | .right => ⟨r, none, some (.single r)⟩

/-- The fill word in every slot of the destination; the memory is kept (R39, R41). -/
def Destination.filled (d : Destination) (fill : Word) : Sent :=
  ⟨fill, if d.form.hasSecond then some fill else none, d.memory⟩

/-- A substitute: the fill word under FILL, the REPEAT memory under REPEAT, the fill word where the memory is absent
(R41). -/
def Destination.substitute (d : Destination) (policy : UnderrunPolicy) (fill : Word) : Sent :=
  match policy, d.memory with
  | .repeatLast, some m => ⟨leftOf m, if d.form.hasSecond then some (rightOf m) else none, d.memory⟩
  | _, _ => d.filled fill

/-- The destination after a first-slot due that sent `x`. -/
def Destination.after (d : Destination) (x : Sent) (phase : Phase) : Destination :=
  { d with phase := phase, hold := x.hold, memory := x.memory }

/-- An underrun is counted while the source port is LOCKED and intake is OPEN or SHED (R41). -/
def Patch.countsUnderrun (r : Patch) (sourceLocked : Bool) : Bool :=
  sourceLocked && (r.intake = .opened || r.intake = .shed)

/-- A take for a reading destination: the record after it and what the first slot sends (R39 to R42). -/
def Patch.take (r : Patch) (d : Destination) (sourceLocked : Bool) : Patch × Word :=
  if d.phase = .unprimed ∧ r.owedCount d.name < r.startLevel then
    let x := d.filled r.fill
    (r.modDest d.name fun d => d.after x .unprimed, x.value)
  else
    match r.queue.find? fun e => e.owed.contains d.name with
    | some e =>
      let x := d.deliver e.sample
      ({ r.modDest d.name (fun d => d.after x .primed) with queue := takeOldest d.name r.queue }, x.value)
    | none =>
      let x := d.substitute r.underrun r.fill
      let n := if r.countsUnderrun sourceLocked then countUp d.underruns else d.underruns
      (r.modDest d.name fun d => { d.after x .primed with underruns := n }, x.value)

/-- The underrun count of a destination by name; 0 where there is none. -/
def Patch.underrunsOf (r : Patch) (nm : DestName) : Nat :=
  match r.dest? nm with
  | some d => d.underruns
  | none => 0

/-- The reading destination that a request names (R38, R43). -/
def Patch.readingDest? (r : Patch) (nm : DestName) : Option Destination :=
  r.dests.find? fun d => decide (d.name = nm) && d.reading

/-! ## On the state -/

/-- The arrival still belongs to the patch: it is not FREE and its source holder is that port with that slot as its SINGLE
or RIGHT slot (R30); a SINGLE slot carries one value and a RIGHT slot a pair. -/
def State.arrivalBelongs (s : State) (n : PatchNo) (p : Port) (q : Slot) (x : Sample) : Bool :=
  (s.patch n).state ≠ .free &&
  match s.inEntry p q, x with
  | some ⟨.holder, m, .single⟩, .single _ => decide (m = n)
  | some ⟨.holder, m, .right⟩, .pair _ _ => decide (m = n)
  | _, _ => false

/-- An arrival at the Sample Exchange (R30 to R33, R45). -/
def State.arrive (s : State) (n : PatchNo) (p : Port) (q : Slot) (x : Sample) : State :=
  if s.arrivalBelongs n p q x then
    let old := (s.patch n).overflows
    let s := s.modPatch n fun r => r.accept x
    s.checkThreshold n old (s.patch n).overflows
  else s

/-- The Sample Exchange holds the port of the patch's source as LOCKED (R41). -/
def State.sourceLocked (s : State) (n : PatchNo) : Bool :=
  match (s.patch n).source with
  | some src => s.sxHolds src.port
  | none => false

/-- A take at the Sample Exchange: the state after it and the value, `none` for "no destination" (R38, R44). -/
def State.takeFor (s : State) (n : PatchNo) (nm : DestName) : State × Option Word :=
  match (s.patch n).readingDest? nm with
  | none => (s, none)
  | some d =>
    let result := (s.patch n).take d (s.sourceLocked n)
    let s' := s.setPatch n result.1
    (s'.checkThreshold n d.underruns (result.1.underrunsOf nm), some result.2)

/-- A second-slot request: the hold's value, which becomes absent; `none` where there is no destination or no hold
(R43, R130). -/
def State.secondFor (s : State) (n : PatchNo) (nm : DestName) : State × Option Word :=
  match (s.patch n).readingDest? nm with
  | none => (s, none)
  | some d => (s.modPatch n fun r => r.modDest nm fun d => { d with hold := none }, d.hold)

/-- A destination is released: its holders leave the map and it leaves its patch (R19, R37). -/
def State.releaseDest (s : State) (n : PatchNo) (nm : DestName) : State :=
  (s.dropHolders n nm).modPatch n fun r => r.release nm

/-- The Sample Exchange's part of a frame start: recovery tests of the sources on the port, then the holds of its
destinations are cleared (R29, R43, R117). -/
def State.exchangeFrameStart (s : State) (p : Port) : State :=
  s.mapPatches fun r => (r.recover p).clearHolds p

/-- A dormancy change of a port (R35, R36); from it on the Sample Exchange holds the port as LOCKED or not (R41). -/
def State.changeDormancy (s : State) (p : Port) (entered : Bool) : State :=
  (s.setSx p entered).mapPatches fun r => if entered then r.wake p else r.sleep p

end Sys2Proof.Machine
end

