-- ==== Sys2Proof/Machine/Edits.lean ====
section
/-! DEFINITION. The machinery of staged edits: tickets, endpoints, their application, completion, withdrawal (chapters 3
and 4). -/

namespace Sys2Proof.Machine

/-! ## Endpoints (R53) -/

/-- The port an endpoint waits on (R53). -/
def Endpoint.port : Endpoint → Port
  | .sourceActivation p | .sourceMove p | .muteApply p | .intakeClose p => p
  | .destActivation d | .transfer d _ _ | .release d => d.port

/-- The endpoint takes from a donor. -/
def Endpoint.takesFrom (n : PatchNo) : Endpoint → Bool
  | .transfer _ donor _ => donor = n
  | _ => false

/-! ## What each action does (R57, R69, R79, R86) -/

/-- Source activation: the source's entries get their holders and intake passes from WAITING to OPEN (R57). -/
def State.activateSource (s : State) (n : PatchNo) : State :=
  match (s.patch n).source with
  | none => s
  | some src =>
    (s.claimSource n .holder src).modPatch n fun r =>
      if r.intake = .waiting then { r with intake := .opened } else r

/-- Source move: old holders gone, latch cleared, new holders, the pending source becomes the source (R69). -/
def State.moveSource (s : State) (n : PatchNo) : State :=
  match (s.patch n).pendingSource with
  | none => s
  | some src =>
    let s := s.dropIn fun c => c.patch = n
    let s := s.clearLatch n
    let s := s.claimSource n .holder src
    s.modPatch n fun r => { r with source := some src, pendingSource := none }

/-- Destination activation: the entries get their holders, the phase leaves WAITING, the mute-applied flag takes the mute
target (R34, R57). -/
def State.activateDest (s : State) (n : PatchNo) (nm : DestName) : State :=
  match (s.patch n).dest? nm with
  | none => s
  | some d =>
    let phase : Phase := if s.pcHolds nm.port then .unprimed else .dormant
    (s.holdDest n d).modPatch n fun r => r.modDest nm fun d =>
      if d.phase = .waiting then { d with phase := phase, muted := r.muteTarget } else d

/-- Mute apply: every destination on the port takes the mute target (R57, R72). -/
def State.applyMute (s : State) (n : PatchNo) (p : Port) : State :=
  s.modPatch n fun r => { r with dests := r.dests.map fun d =>
    if d.port = p then { d with muted := r.muteTarget } else d }

/-- Intake close: intake CLOSED and the latch cleared; the source holders stay (R79). -/
def State.closeIntake (s : State) (n : PatchNo) : State :=
  (s.modPatch n fun r => { r with intake := .closed }).clearLatch n

/-- The action of an endpoint on its subject and, for a transfer, on the donor (R57, R86). -/
def State.act (s : State) (n : PatchNo) : Endpoint → State
  | .sourceActivation _ => s.activateSource n
  | .sourceMove _ => s.moveSource n
  | .destActivation d => s.activateDest n d
  | .transfer d donor donorFirst => (s.releaseDest donor ⟨d.port, donorFirst⟩).activateDest n d
  | .release d => s.releaseDest n d
  | .muteApply p => s.applyMute n p
  | .intakeClose _ => s.closeIntake n

/-! ## The end of a ticket (R59, R60, R63) -/

/-- A ticket becomes DONE and is posted to its issuing link; an orphan is freed and posts nothing (R59, R60, R63). The
unapplied endpoints stay as the awaiting list; the donor list is emptied. -/
def State.endTicket (s : State) (t : TicketNo) (how : Ending) : State :=
  let k := s.ticket t
  if k.orphan then s.setTicket t Ticket.free
  else (s.setTicket t { k with state := .done, ending := some how, donors := [] }).post k.link (.ticketDone t)

/-- A WAITING ticket whose awaiting list is empty completes; an INSTALL's patch becomes LIVE (R9, R59). -/
def State.completeIfEmpty (s : State) (t : TicketNo) : State :=
  let k := s.ticket t
  if k.state = .waiting ∧ k.awaiting = [] then
    let s : State := match k.op, k.subject with
      | some .install, some n => s.modPatch n fun r => if r.state = PatchState.pending then { r with state := .live } else r
      | _, _ => s
    s.endTicket t .completed
  else s

/-- An applied endpoint leaves the awaiting list, and a donor from which nothing more is taken leaves the donor list
(R57, R86). -/
def Ticket.applied (k : Ticket) (e : Endpoint) : Ticket :=
  let awaiting := k.awaiting.erase e
  { k with
    awaiting := awaiting
    donors := match e with
      | .transfer _ donor _ => if awaiting.any (Endpoint.takesFrom donor) then k.donors else k.donors.filter fun d => d ≠ donor
      | _ => k.donors }

/-- A donor left with no destination is freed and posted as EVICTED (R87). -/
def State.freeEmptyDonor (s : State) (donor : PatchNo) : State :=
  if (s.patch donor).state ≠ .free ∧ (s.patch donor).dests = [] then (s.postEvicted donor).freePatch donor else s

/-- A RETIRING patch whose last destination is gone is freed; an intake close still waiting is applied with it (R11, R82). -/
def State.finishRetire (s : State) (t : TicketNo) (n : PatchNo) : State :=
  if (s.patch n).state = .retiring ∧ (s.patch n).dests = [] then
    let s := s.freePatch n
    s.setTicket t { s.ticket t with awaiting := [] }
  else s

/-- Applying one endpoint of a WAITING ticket, with all that follows within the application (R57, R59, R82, R86, R87).
No endpoint of a DONE ticket is applied (R59). -/
def State.applyEndpoint (s : State) (t : TicketNo) (e : Endpoint) : State :=
  match (s.ticket t).subject with
  | none => s
  | some n =>
    if (s.ticket t).state = .waiting ∧ e ∈ (s.ticket t).awaiting then
      let s := s.act n e
      let s := s.setTicket t ((s.ticket t).applied e)
      let s := match e with
        | .transfer _ donor _ => s.freeEmptyDonor donor
        | .release _ | .intakeClose _ => s.finishRetire t n
        | _ => s
      s.completeIfEmpty t
    else s

/-! ## At a frame start and at a LOCKED exit (R56, R58, R81) -/

/-- Whether an endpoint may be applied at a frame start: a DRAIN release only once intake is CLOSED and, if the destination
is PRIMED, nothing is owed to it (R81). -/
def State.ready (s : State) (t : TicketNo) (e : Endpoint) : Bool :=
  match (s.ticket t).mode, (s.ticket t).subject, e with
  | some .drain, some n, .release d =>
    let r := s.patch n
    r.intake = .closed &&
    match r.dest? d with
    | some x => x.phase ≠ .primed || r.owedCount d = 0
    | none => true
  | _, _, _ => true

/-- The endpoints of one ticket on a port are applied: at a LOCKED exit all of them, at a frame start those that are ready
(R56, R58). -/
def State.applyTicketOn (s : State) (p : Port) (exit : Bool) (t : TicketNo) : State :=
  ((s.ticket t).awaiting.filter fun e => e.port = p).foldl
    (fun s e => if exit || s.ready t e then s.applyEndpoint t e else s) s

/-- Every endpoint on a port in the awaiting lists of all WAITING tickets (R56, R58). -/
def State.applyOn (s : State) (p : Port) (exit : Bool) : State :=
  (List.finRange 12).foldl (fun s t => s.applyTicketOn p exit t) s

/-! ## Acceptance of a staged edit (R55) -/

/-- The slots of an endpoint that is to wait are reserved (R18). -/
def State.reserveFor (s : State) (n : PatchNo) : Endpoint → State
  | .sourceActivation _ =>
    match (s.patch n).source with
    | some src => s.claimSource n .reservation src
    | none => s
  | .sourceMove _ =>
    match (s.patch n).pendingSource with
    | some src => s.claimSource n .reservation src
    | none => s
  | .destActivation nm | .transfer nm _ _ =>
    match (s.patch n).dest? nm with
    | some d => s.reserveDest n d
    | none => s
  | .release _ | .muteApply _ | .intakeClose _ => s

/-- The ticket of an accepted edit (R52, R55). -/
def openTicket (l : Link) (op : Op) (mode : Option RetireMode) (n : PatchNo) (donors : List PatchNo)
    (es : List Endpoint) : Ticket where
  state := .waiting
  link := l
  op := some op
  mode := mode
  subject := some n
  donors := donors
  total := es.length
  awaiting := es
  ending := none
  orphan := false

/-- A ticket is allocated; the slots of the endpoints on ports held as LOCKED are reserved and wait, the other endpoints are
applied at once; a ticket left with nothing to await is DONE (R55). -/
def State.stage (s : State) (t : TicketNo) (k : Ticket) (n : PatchNo) : State :=
  let s := s.setTicket t k
  let s := k.awaiting.foldl (fun s e => if s.pcHolds e.port then s.reserveFor n e else s) s
  let s := k.awaiting.foldl (fun s e => if s.pcHolds e.port then s else s.applyEndpoint t e) s
  s.completeIfEmpty t

/-- A destination as the acceptance of its INSTALL or ADD-DEST creates it (R5). -/
def DestSpec.create (d : DestSpec) : Destination where
  port := d.port
  form := d.form
  first := d.first
  second := d.second
  phase := .waiting
  marker := none
  muted := false
  underruns := 0
  memory := none
  hold := none

/-- A release-pending marker is set on a destination (R5). -/
def State.mark (s : State) (n : PatchNo) (nm : DestName) (why : ReleaseReason) : State :=
  s.modPatch n fun r => r.modDest nm fun d => { d with marker := some why }

/-! ## Takeover (R84, R85) -/

/-- The output entries a requested destination names, first slot first. -/
def State.namedEntries (s : State) (d : DestSpec) : List OutEntry := d.slots.map fun q => s.outEntry d.port q

/-- The holders a requested destination meets. -/
def State.heldBy (s : State) (d : DestSpec) : List OutHolder := (s.namedEntries d).filterMap OutEntry.holder

/-- The endpoint that brings a requested destination into service: a transfer from the donor whose entry it names, else a
plain activation (R85). -/
def State.endpointFor (s : State) (d : DestSpec) : Endpoint :=
  match s.heldBy d with
  | [] => .destActivation d.name
  | h :: _ => .transfer d.name h.patch h.first

/-- The donors of a list of endpoints, each once, in the order of the first taker (R84). -/
def donorsOf (es : List Endpoint) : List PatchNo :=
  es.foldl (fun ds e =>
    match e with
    | .transfer _ donor _ => if donor ∈ ds then ds else ds ++ [donor]
    | _ => ds) []

/-- Every donor destination receives its TAKEN marker (R85). -/
def State.markDonors (s : State) (es : List Endpoint) : State :=
  es.foldl (fun s e =>
    match e with
    | .transfer d donor donorFirst => s.mark donor ⟨d.port, donorFirst⟩ .taken
    | _ => s) s

/-! ## Withdrawal (R75, R89, R95) -/

/-- Transfers not yet applied are withdrawn: each donor destination loses its TAKEN marker (R89). -/
def State.unmarkDonors (s : State) (es : List Endpoint) : State :=
  es.foldl (fun s e =>
    match e with
    | .transfer d donor donorFirst =>
      s.modPatch donor fun r => r.modDest ⟨d.port, donorFirst⟩ fun x =>
        if x.marker = some .taken then { x with marker := none } else x
    | _ => s) s

/-- What a WAITING ticket has brought is withdrawn: its donors' markers, its reservations, the pending source of a REBIND,
the WAITING destination of an ADD-DEST (R75, R89, R95). -/
def State.withdraw (s : State) (t : TicketNo) : State :=
  let s := s.unmarkDonors (s.ticket t).awaiting
  match (s.ticket t).subject with
  | none => s
  | some n =>
    (s.dropReservations n).modPatch n fun r =>
      { r with pendingSource := none, dests := r.dests.filter fun d => d.phase ≠ .waiting }

/-! ## Eviction (R91, R92) -/

/-- The candidates for eviction (R91). -/
def State.evictable (s : State) (l : Link) (priority : Fin 4) (donors : List PatchNo) (n : PatchNo) : Bool :=
  let r := s.patch n
  r.state = .live && !r.locked && !s.busy n && !donors.contains n && decide (r.priority < priority)
  && (l = .main || s.auxOwned n)

/-- The victim: the candidate of lowest priority that stands earliest in the install-order list (R91). -/
def State.victim? (s : State) (l : Link) (priority : Fin 4) (donors : List PatchNo) : Option PatchNo :=
  (s.order.filter (s.evictable l priority donors)).foldl (fun best n =>
    match best with
    | none => some n
    | some b => if (s.patch n).priority < (s.patch b).priority then some n else some b) none

/-- The victim is freed and posted as EVICTED by the owner tag it held (R92). -/
def State.evict (s : State) (n : PatchNo) : State := (s.postEvicted n).freePatch n

end Sys2Proof.Machine
end

