-- ==== Sys2Proof/Machine/Acceptance.lean ====
section
/-! DEFINITION. Taking a command and the ten acceptance checks (chapter 9). -/

namespace Sys2Proof.Machine

/-- What a step answers. -/
abbrev Answer := Host.Outcome State Fault Refusal

/-- A command carried out: the state after it, its status and its payload. -/
structure Reply where
  state : State
  status : Status
  payload : List Byte
  deriving DecidableEq, Repr

/-- One acceptance check: whether it fails, and the status it answers then (R169). -/
abbrev Check := Bool × Status

/-- The status of the first check that fails (R169). -/
def firstFailure (cs : List Check) : Option Status := (cs.find? fun c => c.1).map fun c => c.2

/-- The arbiter may take a command of a link: its response queue has room, and a disabled aux link has none (R163). -/
def State.mayTake (s : State) (l : Link) : Bool :=
  decide ((s.link l).responses.length < Config.queuePlaces) && (l = .main || s.rights.enabled)

/-- The arbiter takes a frame: it leaves the head of its link's command queue if it stands there, and the link is recorded
as last served (R163). -/
def State.takeFrame (s : State) (code : Byte) (t : Taken) : State :=
  let s := s.modLink t.link fun k =>
    if k.commands.head? = some ⟨code, t.seq, t.len, t.params⟩ then { k with commands := k.commands.tail } else k
  { s with lastServed := t.link }

/-- A response frame joins the tail of a link's response queue (R152, R154). -/
def State.respond (s : State) (l : Link) (r : Response) : State :=
  s.modLink l fun k => { k with responses := k.responses ++ [r] }

/-- A command the arbiter takes: judged by its checks in order, refused with the first status that fails and nothing else
changed, or carried out whole; either way answered once (R152, R169). A command of a link that does not qualify is not taken
(R163). -/
def hostCommand (code : Byte) (t : Taken) (checks : State → List Check) (carry : State → Reply) (s : State) : Answer :=
  if s.mayTake t.link then
    let s := s.takeFrame code t
    match firstFailure (checks s) with
    | some st => .next (s.respond t.link ⟨st, t.seq, code, []⟩)
    | none =>
      let r := carry s
      .next (r.state.respond t.link ⟨r.status, t.seq, code, r.payload⟩)
  else .next s

/-! ## Checks shared by several commands -/

/-- Check 1: the declared length is the one the code requires; none exceeds 36 (R170). -/
def wrongLength (t : Taken) (n : Nat) : Check := (t.len.toNat ≠ n, .badFrame)

/-- Check 2: a supervisor-only command from the aux link (R142, R171). -/
def supervisorOnly (t : Taken) : Check := (t.link = .aux, .denied)

/-- Check 3: a field out of its range, or fields that disagree (R172, R173). -/
def badParam (ok : Bool) : Check := (!ok, .badParam)

/-- Check 4: the subject is FREE (R174). -/
def State.missing (s : State) (n : PatchNo) : Check := ((s.patch n).state = .free, .notFound)

/-- Check 5: the subject of an aux edit is aux-owned and not locked (R144, R175). -/
def State.noRight (s : State) (t : Taken) (n : PatchNo) : Check :=
  (t.link = .aux && (!s.auxOwned n || (s.patch n).locked), .denied)

/-- Check 5: a new endpoint of an aux edit lies on a granted port (R145, R175). -/
def State.notGranted (s : State) (t : Taken) (ps : List Port) : Check :=
  (t.link = .aux && ps.any fun p => !s.rights.grants p, .denied)

/-- Check 6: the subject is not LIVE (R13, R176). -/
def State.notLive (s : State) (n : PatchNo) : Check := ((s.patch n).state ≠ .live, .badState)

/-- Check 7: the subject is busy (R64, R177). -/
def State.subjectBusy (s : State) (n : PatchNo) : Check := (s.busy n, .busy)

/-- Check 7: with TAKE, a named output entry is held by a busy patch (R177). -/
def State.donorBusy (s : State) (take : Bool) (ds : List DestSpec) : Check :=
  (take && ds.any fun d => (s.heldBy d).any fun h => s.busy h.patch, .busy)

/-- Check 8: a named input slot carries a claim (R17, R178). -/
def State.inputClaimed (s : State) (src : Source) : Bool :=
  src.roles.any fun x => (s.inEntry src.port x.1).isSome

/-- A patch the link may take from: LIVE, not locked and, for the aux link, aux-owned (R84, R147). -/
def State.mayDonate (s : State) (l : Link) (n : PatchNo) : Bool :=
  (s.patch n).state = .live && !(s.patch n).locked && (l = .main || s.auxOwned n)

/-- The held entries a destination names belong to one donor destination, and its first slot is among them (R84). -/
def oneDonor (d : DestSpec) : List OutHolder → Bool
  | [] => true
  | h :: hs => (hs.all fun x => x.patch = h.patch && x.first = h.first) && d.slots.contains h.first

/-- Check 8 for one requested destination (R178): without TAKE any claim, with TAKE what R84 does not allow. -/
def State.outputConflict (s : State) (l : Link) (take : Bool) (subject : Option PatchNo) (d : DestSpec) : Bool :=
  if take then
    ((s.namedEntries d).any fun e => e.resv.isSome)
    || ((s.heldBy d).any fun h => subject = some h.patch || !s.mayDonate l h.patch)
    || !oneDonor d (s.heldBy d)
  else (s.namedEntries d).any fun e => e.holder.isSome || e.resv.isSome

/-- Check 9: no ticket for the link (R54, R179). -/
def State.lacksTicket (s : State) (l : Link) : Check :=
  (s.freeTicket?.isNone || (l = .aux && decide (Config.auxTickets ≤ s.auxTicketCount)), .noTicket)

/-- The ticket an accepted edit gets: the lowest-numbered FREE one (R55). -/
def State.newTicket (s : State) : TicketNo := s.freeTicket?.getD 0

/-- The ACCEPTED answer: ticket, its state at the end of the acceptance, subject, victim (R55, section 8.7). -/
def State.accepted (s : State) (t : TicketNo) (n : PatchNo) (victim : Option PatchNo) : Reply where
  state := s
  status := .accepted
  payload := [ticketByte t, ticketStateByte (s.ticket t).state, patchByte n, optByte patchByte victim]

/-- An OK answer. -/
def State.ok (s : State) (payload : List Byte) : Reply := ⟨s, .ok, payload⟩

end Sys2Proof.Machine
end

