-- ==== Sys2Proof/Machine/AlertCommands.lean ====
section
/-! DEFINITION. READ-ALERTS, ACK-ALERTS, SET-ALERT-MASK and SET-AUX (sections 7.2, 8.6 and 10.4). -/

namespace Sys2Proof.Machine

/-! ## READ-ALERTS (R188) -/

def readAlertsChecks (t : Taken) (_s : State) : List Check := [ wrongLength t 0 ]

def carryReadAlerts (t : Taken) (s : State) : Reply :=
  let a := s.alerts t.link
  s.ok (a.setBytes ++ [byte a.masked.toNat, boolByte a.line])

/-- READ-ALERTS (R188). -/
def execReadAlerts (t : Taken) (s : State) : Answer := hostCommand 0x50 t (readAlertsChecks t) (carryReadAlerts t) s

/-! ## ACK-ALERTS (R189) -/

/-- The five member sets an ACK-ALERTS names, each as the number its bytes spell. -/
structure AckSets where
  ticketDone : Nat
  evicted : Nat
  trouble : Nat
  portChange : Nat
  frameError : Nat
  deriving DecidableEq, Repr

def ackSetsOf (t : Taken) : AckSets :=
  ⟨fromBigEndian (t.paramBytes 0 2), fromBigEndian (t.paramBytes 2 6), fromBigEndian (t.paramBytes 8 6),
    (t.param 14).toNat, (t.param 15).toNat⟩

/-- No set names a member beyond its range (R172, R189). -/
def AckSets.inRange (a : AckSets) : Bool :=
  decide (a.ticketDone < 2 ^ 12) && decide (a.evicted < 2 ^ 48) && decide (a.trouble < 2 ^ 48)
  && decide (a.portChange < 2 ^ 6) && decide (a.frameError < 2 ^ 6)

/-- The named members that are present are removed; the others stay (R189). -/
def Alerts.acknowledge (a : Alerts) (k : AckSets) : Alerts :=
  { a with
    ticketDone := a.ticketDone &&& ~~~BitVec.ofNat 12 k.ticketDone
    evicted := a.evicted &&& ~~~BitVec.ofNat 48 k.evicted
    trouble := a.trouble &&& ~~~BitVec.ofNat 48 k.trouble
    portChange := a.portChange &&& ~~~BitVec.ofNat 6 k.portChange
    frameError := a.frameError &&& ~~~BitVec.ofNat 6 k.frameError }

def ackAlertsChecks (t : Taken) (_s : State) : List Check := [ wrongLength t 16, badParam (ackSetsOf t).inRange ]

def carryAckAlerts (t : Taken) (s : State) : Reply :=
  let a := (s.alerts t.link).acknowledge (ackSetsOf t)
  (s.setAlerts t.link a).ok a.setBytes

/-- ACK-ALERTS (R189). -/
def execAckAlerts (t : Taken) (s : State) : Answer := hostCommand 0x51 t (ackAlertsChecks t) (carryAckAlerts t) s

/-! ## SET-ALERT-MASK (R190) -/

def setAlertMaskChecks (t : Taken) (_s : State) : List Check :=
  [ wrongLength t 1, badParam (decide ((t.param 0).toNat < 32)) ]

def carrySetAlertMask (t : Taken) (s : State) : Reply :=
  let a := { s.alerts t.link with masked := BitVec.ofNat 5 (t.param 0).toNat }
  (s.setAlerts t.link a).ok [byte a.masked.toNat]

/-- SET-ALERT-MASK (R190). -/
def execSetAlertMask (t : Taken) (s : State) : Answer :=
  hostCommand 0x52 t (setAlertMaskChecks t) (carrySetAlertMask t) s

/-! ## SET-AUX (R140, R165, R166) -/

/-- What the disable does to a ticket: an aux DONE ticket is freed, an aux WAITING ticket becomes an orphan (R63). -/
def Ticket.orphaned (k : Ticket) : Ticket :=
  if k.link = .aux then
    match k.state with
    | .done => Ticket.free
    | .waiting => { k with orphan := true }
    | .free => k
  else k

/-- Queues emptied, last-refused clear, cause sets emptied (R165, R166). -/
def State.clearAuxLink (s : State) : State :=
  { s with
    auxLink := { s.auxLink with commands := [], responses := [], lastRefused := none }
    auxAlerts := s.auxAlerts.empty }

/-- The transaction in progress is abandoned: the bus is ignored until the next start condition, and I2C_SDA is released from
the next bit, at the next fall of I2C_SCL (R166). -/
def Bus.abandon (b : Bus) : Bus := { b with phase := .ignoring, bits := [], ninth := .no }

/-- The aux link is disabled (R63, R166). -/
def State.disableAux (s : State) : State :=
  { s.clearAuxLink with tickets := s.tickets.map Ticket.orphaned, i2c := s.i2c.abandon }

/-- The three fields of the rights record are replaced; a change of the enable field enables or disables the link (R140,
R165, R166). -/
def State.setAux (s : State) (rights : AuxRights) : State :=
  let was := s.rights.enabled
  let s := { s with rights := rights }
  match was, rights.enabled with
  | false, true => s.clearAuxLink
  | true, false => s.disableAux
  | _, _ => s

/-- The rights record a SET-AUX carries. -/
def rightsOf (t : Taken) : AuxRights :=
  ⟨t.param 0 == 1, Fin.ofNat 8 (t.param 1).toNat, BitVec.ofNat 6 (t.param 2).toNat⟩

def setAuxChecks (t : Taken) (_s : State) : List Check :=
  [ wrongLength t 3, supervisorOnly t,
    badParam (inBool (t.param 0) && decide (1 ≤ (t.param 1).toNat ∧ (t.param 1).toNat ≤ 7)
      && decide ((t.param 2).toNat < 64)) ]

def carrySetAux (t : Taken) (s : State) : Reply := (s.setAux (rightsOf t)).ok []

/-- SET-AUX (R140). -/
def execSetAux (t : Taken) (s : State) : Answer := hostCommand 0x60 t (setAuxChecks t) (carrySetAux t) s

end Sys2Proof.Machine
end

