-- ==== Sys2Proof/Machine/Links.lean ====
section
/-! DEFINITION. The transactions of the two links, the arbiter's choice, and power-on (chapter 8). -/

namespace Sys2Proof.Machine

/-! ## What a link reports (R158, R159) -/

/-- The places of a command queue that are taken; a frame being received on the aux link holds one (R153). -/
def State.heldPlaces (s : State) : Link → Nat
  | .main => s.mainLink.commands.length
  | .aux => s.auxLink.commands.length + (match s.i2c.phase with
      | .writing (_ :: _) => 1
      | .writing [] | .ignoring | .address _ | .refused | .reading _ _ => 0)

/-- A link's status block (R159, section 8.7). -/
def State.statusBlock (s : State) (l : Link) : List Byte :=
  [byte (Config.queuePlaces - s.heldPlaces l), byte (s.link l).responses.length,
    refusedByte (s.link l).lastRefused, boolByte (s.alertLine l)]

/-- The empty marker (R158). -/
def State.emptyMarker (s : State) (l : Link) : List Byte := [0, 0, 0, 4] ++ s.statusBlock l

/-- What a FETCH or a response read shifts out, and whether it is the head response (R158, R162). -/
def State.headBytes (s : State) (l : Link) : List Byte × Bool :=
  match (s.link l).responses with
  | [] => (s.emptyMarker l, false)
  | r :: _ => (r.bytes, true)

/-- The head response, carried out whole, leaves its queue (R154). -/
def State.removeHead (s : State) (l : Link) : State :=
  s.modLink l fun k => { k with responses := k.responses.tail }

/-- A transport refusal sets the flag and replaces its reason (R155). -/
def State.refuse (s : State) (l : Link) (why : Refused) : State :=
  s.modLink l fun k => { k with lastRefused := some why }

/-- A frame joins the tail of a command queue and clears last-refused (R153, R155). -/
def State.enqueue (s : State) (l : Link) (f : Frame) : State :=
  s.modLink l fun k => { k with commands := k.commands ++ [f], lastRefused := none }

/-- The level of bit `i` of the first of some bytes, most significant bit first; 0xFF after the last (R158, R159, R162). -/
def outLevel (out : List Byte) (i : Nat) : Bool := (out.headD 0xFF).getLsbD (7 - i)

/-! ## The main link (R156 to R159) -/

/-- The level of SPI_DO while SPI_CS_N is low: 0xFF during the selector, then the bytes captured at it, then 0xFF (R156). -/
def Spi.level (t : Spi) : Bool :=
  match t.selector with
  | none => true
  | some _ => outLevel (t.out.drop t.bytes.length) t.bits.length

/-- SPI_DO: high impedance while SPI_CS_N is high (R156). -/
def State.spiDo (s : State) : Option Bool := s.spi.map Spi.level

/-- The selector is complete: what the transaction shifts out is captured (R156, R158, R159). -/
def State.capture (s : State) (b : Byte) : Spi :=
  match selectorOf b with
  | some .fetch => ⟨[], some b, [], (s.headBytes .main).1, (s.headBytes .main).2⟩
  | some .status => ⟨[], some b, [], s.statusBlock .main, false⟩
  | some .send | none => ⟨[], some b, [], [], false⟩

/-- A byte of the transaction is complete at its eighth bit (R156). -/
def State.spiByte (s : State) (t : Spi) (b : Byte) : Spi :=
  match t.selector with
  | none => s.capture b
  | some _ => { t with bits := [], bytes := t.bytes ++ [b] }

/-- The end of a SEND: TRUNCATED is judged first, then FULL (R157). -/
def State.sendFrame (s : State) (bytes : List Byte) : State :=
  match frameOfBytes bytes with
  | none => s.refuse .main .truncated
  | some f =>
    if Config.queuePlaces ≤ s.mainLink.commands.length then s.refuse .main .full else s.enqueue .main f

/-- The rise of SPI_CS_N: a SEND is judged, a response that a FETCH has clocked out whole is removed; a transaction with
another selector, or that ends before its selector is complete, changes nothing. The bits of an incomplete byte are discarded
(R156 to R159). -/
def State.endSpi (s : State) (t : Spi) : State :=
  match t.selector.bind selectorOf with
  | some .send => s.sendFrame t.bytes
  | some .fetch => if t.response ∧ t.out.length ≤ t.bytes.length then s.removeHead .main else s
  | some .status | none => s

/-- One event on the pins of the main link. An event that cannot happen at the level of SPI_CS_N is passed over (log entry
14). -/
def State.spiEvent (s : State) (e : SpiEvent) : State :=
  match e, s.spi with
  | .select, none => { s.modLink .main fun k => { k with sent := [] } with spi := some ⟨[], none, [], [], false⟩ }
  | .clock di, some t =>
    let s := s.modLink .main fun k => { k with sent := k.sent ++ [t.level] }
    let bits := t.bits ++ [di]
    { s with spi := some (if bits.length < 8 then { t with bits := bits } else s.spiByte t (byteOfBits bits)) }
  | .deselect, some t => { s.endSpi t with spi := none }
  | .select, some _ | .clock _, none | .deselect, none => s

/-- What happens on the pins of the main link, in order. -/
def State.spiEvents (s : State) (pins : List SpiEvent) : State := pins.foldl State.spiEvent s

/-- SEND (R157). -/
def execSend (pins : List SpiEvent) (s : State) : Answer := .next (s.spiEvents pins)

/-- FETCH (R158). -/
def execFetch (pins : List SpiEvent) (s : State) : Answer := .next (s.spiEvents pins)

/-- STATUS (R159). -/
def execStatus (pins : List SpiEvent) (s : State) : Answer := .next (s.spiEvents pins)

/-! ## The aux link (R160 to R162) -/

/-- The level of I2C_SDA: high unless the bus or the part pulls it low (R160). -/
def Bus.sda (b : Bus) : Bool := b.wire.sda && !b.sdaLow

/-- Every byte of the frame whose first bytes these are has been received (R151, R161). -/
def frameWhole (bytes : List Byte) : Bool := (frameOfBytes bytes).isSome

/-- The end of an aux write with these data bytes: one with no data byte changes nothing, a whole frame joins the queue in its
held place, another gives it back as TRUNCATED (R161). A write refused FULL is not judged. -/
def State.endWrite (s : State) : State :=
  match s.i2c.phase with
  | .writing (b :: bs) =>
    match frameOfBytes (b :: bs) with
    | none => s.refuse .aux .truncated
    | some f => s.enqueue .aux f
  | .writing [] | .ignoring | .address _ | .refused | .reading _ _ => s

/-- A start condition: a write in progress ends, and the address follows (R160 to R162). A read is a status read where the start
before its address ends a write of no data byte. The manual does not say what a further start condition before that address is
complete makes of the read: in the model a response read. Nor does it name a write whose first data byte, or whose address
acknowledge, is cut by the start: in the model it is one of no data byte (DESIGN CHOICE, log entry 32). -/
def State.i2cStart (s : State) : State :=
  let t := (s.endWrite).modLink .aux fun k => { k with sent := [] }
  { t with i2c := { s.i2c with
      sample := none, sdaLow := false, bits := [], ninth := .no
      phase := .address (s.i2c.phase = .writing []) } }

/-- A stop condition: a write in progress ends, and the bus is ignored (R160 to R162). -/
def State.i2cStop (s : State) : State :=
  { s.endWrite with i2c := { s.i2c with sample := none, sdaLow := false, bits := [], ninth := .no, phase := .ignoring } }

/-- What follows an address byte: a write or a read where it is the part's own and the link is enabled, which the part
acknowledges; else nothing until the next start condition (R160). What a read shifts out is captured here (R162). The manual
does not say when within the address acknowledge: in the model at its start, the fall of I2C_SCL that ends the eighth clock, so
that a response that joins between there and the ninth clock is not read (DESIGN CHOICE, log entry 31). -/
def State.addressed (s : State) (afterEmpty : Bool) (b : Byte) : BusPhase :=
  if s.rights.enabled && b.extractLsb' 1 7 == s.auxAddress then
    if b.getLsbD 0 then
      if afterEmpty then .reading (s.statusBlock .aux) false
      else .reading (s.headBytes .aux).1 (s.headBytes .aux).2
    else .writing []
  else .ignoring

/-- The part receives the byte in progress, and answers it with the acknowledge bit (R160). -/
def BusPhase.listens : BusPhase → Bool
  | .address _ | .writing _ | .refused => true
  | .ignoring | .reading _ _ => false

/-- Eight bits of a byte have passed: the next phase, whether the part acknowledges, and what is judged at the byte. The first
data byte of a write is judged against the command queue, a byte after the frame's end gets a NACK and is ignored (R161). The
moment within the byte is the fall of I2C_SCL that ends its eighth clock (DESIGN CHOICE, log entry 31). -/
def State.i2cByte (s : State) (b : Byte) : State × BusPhase × Bool :=
  match s.i2c.phase with
  | .address afterEmpty =>
    let next := s.addressed afterEmpty b
    (s, next, next ≠ .ignoring)
  | .writing [] =>
    if Config.queuePlaces ≤ s.heldPlaces .aux then (s.refuse .aux .full, .refused, false) else (s, .writing [b], true)
  | .writing (x :: xs) =>
    if frameWhole (x :: xs) then (s, .writing (x :: xs), false) else (s, .writing (x :: xs ++ [b]), true)
  | .refused => (s, .refused, false)
  | .ignoring => (s, .ignoring, false)
  | .reading out response => (s, .reading out response, false)

/-- The host's acknowledge bit of a byte the part has sent: acknowledged, the next byte follows, and the head response is
removed if this was its last byte; a NACK ends the read (R162). -/
def State.hostAck (s : State) (acked : Bool) : State × BusPhase :=
  match s.i2c.phase with
  | .reading out response =>
    if acked then (if response ∧ out.length = 1 then s.removeHead .aux else s, .reading out.tail response)
    else (s, .ignoring)
  | .ignoring | .address _ | .writing _ | .refused => (s, s.i2c.phase)

/-- The part pulls I2C_SDA low for a zero bit of a byte it sends (R160, R162). -/
def BusPhase.pulls (phase : BusPhase) (bits : List Bool) : Bool :=
  match phase with
  | .reading out _ => !outLevel out bits.length
  | .ignoring | .address _ | .writing _ | .refused => false

/-- One clock of the bus has passed, I2C_SCL high and low again: a data bit or an acknowledge bit of this level. From here to
the next fall of I2C_SCL the part drives the bit that follows (R160 to R162). -/
def State.i2cBit (s : State) (bit : Bool) : State :=
  let s := s.modLink .aux fun k => { k with sent := k.sent ++ [!s.i2c.sdaLow] }
  let put (s : State) (phase : BusPhase) (bits : List Bool) (ninth : Ninth) (low : Bool) : State :=
    { s with i2c := { s.i2c with phase := phase, bits := bits, ninth := ninth, sdaLow := low } }
  match s.i2c.ninth with
  | .part => put s s.i2c.phase [] .no (s.i2c.phase.pulls [])
  | .host =>
    let (s, phase) := s.hostAck !bit
    put s phase [] .no (phase.pulls [])
  | .no =>
    let bits := s.i2c.bits ++ [bit]
    if s.i2c.phase = .ignoring then put s .ignoring [] .no false
    else if bits.length < 8 then put s s.i2c.phase bits .no (s.i2c.phase.pulls bits)
    else if s.i2c.phase.listens then
      let (s, phase, acks) := s.i2cByte (byteOfBits bits)
      put s phase [] (if phase = .ignoring then .no else .part) acks
    else put s s.i2c.phase [] .host false

/-- The bus gives its lines new levels: a rise of I2C_SCL samples I2C_SDA, its fall ends the clock, and a change of I2C_SDA
while I2C_SCL is high is a start or a stop condition (R160). The manual does not say when within its clock a bit or an
acknowledge counts: in the model it counts at the fall of I2C_SCL, so a start or a stop condition in that clock voids it (DESIGN
CHOICE, log entry 30). -/
def State.i2cWire (s : State) (w : Wire) : State :=
  let b := s.i2c
  let now : Bus := { b with wire := w }
  match b.wire.scl, w.scl with
  | false, true => { s with i2c := { now with sample := some now.sda } }
  | true, false =>
    match b.sample with
    | some bit => { s with i2c := { now with sample := none } }.i2cBit bit
    | none => { s with i2c := now }
  | true, true =>
    if b.sda && !now.sda then { s with i2c := now }.i2cStart
    else if !b.sda && now.sda then { s with i2c := now }.i2cStop
    else { s with i2c := now }
  | false, false => { s with i2c := now }

/-- What the bus does, in order. -/
def State.i2cWires (s : State) (pins : List Wire) : State := pins.foldl State.i2cWire s

/-- AUX_WRITE_FIRST_BYTE (R161). -/
def execAuxWriteFirstByte (pins : List Wire) (s : State) : Answer := .next (s.i2cWires pins)

/-- AUX_WRITE_END (R161). -/
def execAuxWriteEnd (pins : List Wire) (s : State) : Answer := .next (s.i2cWires pins)

/-- STATUS_READ (R162). -/
def execStatusRead (pins : List Wire) (s : State) : Answer := .next (s.i2cWires pins)

/-- RESPONSE_READ (R162). -/
def execResponseRead (pins ending : List Wire) (s : State) : Answer := .next ((s.i2cWires pins).i2cWires ending)

/-! ## The arbiter (R163) -/

/-- A link qualifies: its command queue holds a frame and its response queue has room (R163). -/
def State.qualifies (s : State) (l : Link) : Bool := !(s.link l).commands.isEmpty && s.mayTake l

/-- The link the arbiter serves: the one that qualifies, or of two the one not served last (R163). -/
def State.arbiterLink (s : State) : Option Link :=
  match s.qualifies .main, s.qualifies .aux with
  | true, true => some (match s.lastServed with | .main => .aux | .aux => .main)
  | true, false => some .main
  | false, true => some .aux
  | false, false => none

/-- The command the arbiter takes: the head of the chosen link's queue (R163). -/
def State.arbiterCommand (s : State) : Option Instr :=
  s.arbiterLink.bind fun l => (s.link l).commands.head?.map (decodeFrame l)

/-! ## Power-on and RESET_N (R167) -/

/-- POWER_ON_RESET: every record, queue, port, ticket and cause set at its power-on value, a transaction in progress abandoned
and its lines released; the address is sampled from ADDR1 and ADDR0 (R160, R167). The levels the bus has outside the part
and the sequence of commands go on. -/
def execPowerOnReset (addr : BitVec 2) (s : State) : Answer :=
  .next { State.reset with
    pending := s.pending
    auxAddress := Config.auxBaseAddress + addr.setWidth 7
    i2c := { Bus.powerOn with wire := s.i2c.wire } }

end Sys2Proof.Machine
end

