-- ==== Sys2Proof/Machine/Lanes.lean ====
section
/-! DEFINITION. The shape of a frame: spans and gaps, the conversion of samples, the level of DOUT, the edges of SYNC, and
which slot events a port raises (sections 5.3, 5.4 and 6.1 to 6.5). -/

namespace Sys2Proof.Machine

/-! ## Spans (R98, R123) -/

/-- The frame length in bit clocks (R98). -/
def PortConfig.frameLength (c : PortConfig) : Nat := c.slots * c.slotWidth

/-- Half the frame length, the length of each half of a SPLIT frame (R98, R107). -/
def PortConfig.halfLength (c : PortConfig) : Nat := c.slots / 2 * c.slotWidth

/-- The half of the frame a slot lies in (R123). -/
def PortConfig.halfOf (c : PortConfig) (n : Slot) : Half :=
  if c.framing = .split ∧ c.slots / 2 ≤ n.val then .second else .first

/-- The first bit clock of a slot's span, counted from the frame start edge or, in the second half, the mid edge (R123). -/
def PortConfig.spanStart (c : PortConfig) (n : Slot) : Nat :=
  (match c.halfOf n with
    | .first => n.val
    | .second => n.val - c.slots / 2) * c.slotWidth + c.dataDelay

/-- The last bit clock of a slot's span (R123). -/
def PortConfig.spanEnd (c : PortConfig) (n : Slot) : Nat := c.spanStart n + c.slotWidth - 1

/-- The slots of a half of the frame: the first of them and how many (R123). PULSE frames have one half. -/
def PortConfig.slotsOf (c : PortConfig) : Half → Nat × Nat
  | .first => (0, match c.framing with | .pulse => c.slots | .split => c.slots / 2)
  | .second => (c.slots / 2, match c.framing with | .pulse => 0 | .split => c.slots / 2)

/-- The half that a frame start edge ends (R107). -/
def PortConfig.lastHalf (c : PortConfig) : Half :=
  match c.framing with
  | .pulse => .first
  | .split => .second

/-- The slot in whose span bit clock `k` of a half lies, and the offset within the span; `none` for a gap bit clock, in which
DOUT is low and DIN is ignored (R123). -/
def PortConfig.spanAt (c : PortConfig) (half : Half) (k : Nat) : Option (Nat × Nat) :=
  let (base, count) := c.slotsOf half
  let j := (k - c.dataDelay) / c.slotWidth
  if c.dataDelay ≤ k ∧ j < count then some (base + j, (k - c.dataDelay) % c.slotWidth) else none

/-! ## Converting samples (R125, R126) -/

/-- The top `w` bits of a value, zero below: the conversion of both lanes (R125, R126). -/
def keepTop (w : Nat) (v : Word) : Word := v &&& (BitVec.allOnes 32 <<< (32 - w))

/-- The lane carrying the port's idle word (R129, R133). -/
def PortConfig.idleLane (c : PortConfig) : Lane := .carrying (keepTop c.sampleWidth c.idleWord)

/-! ## The level of DOUT (R123, R126, R132, R133) -/

/-- The level at offset `i` of the span of slot `n`: bit 31 of the value at offset 0, then downward. A LOCKED port sends in
the span of the slot in progress alone; outside LOCKED every span carries the idle word (R126, R132, R133). -/
def PortRec.spanLevel (r : PortRec) (n i : Nat) : Bool :=
  match r.dout with
  | .low => false
  | .carrying v => (r.state ≠ .locked || r.dueSlot.map Fin.val = some n) && v.getLsbD (31 - i)

/-- The level of DOUT at bit clock `k` of a half: the span's level, low in a gap; bit clock 0 under data delay 1 lies in no
span of the half, and carries the tail bit of the slot before where there is one (R123). -/
def PortRec.laneLevel (r : PortRec) (half : Half) (k : Nat) : Bool :=
  match r.config.spanAt half k with
  | some (n, i) => r.spanLevel n i
  | none => k == 0 && r.tail

/-- The level of DOUT that a half leaves for the bit clock of the edge that ends it on time at exactly its last span's end:
under data delay 1 the last bit of its last slot; otherwise, and at every other bit clock, there is none (R123). -/
def PortRec.tailAfter (r : PortRec) (half : Half) (k : Nat) : Bool :=
  let (_, count) := r.config.slotsOf half
  if r.config.dataDelay = 1 ∧ 0 < count ∧ k = count * r.config.slotWidth then
    match r.config.spanAt half k with
    | some (n, i) => r.spanLevel n i
    | none => false
  else false

/-- DOUT of an ARMED port at bit clock `k` after PORT-START: free-running frames of the frame length. Bit clock 0 of a half
carries the tail bit of the slot before, but for the first (R123, R133). -/
def PortRec.armedLevel (r : PortRec) (k : Nat) : Bool :=
  let c := r.config
  let level (before half : Half) (j : Nat) : Bool :=
    if j = 0 ∧ c.dataDelay = 1 then decide (0 < k) && r.tailAfter before ((c.slotsOf before).2 * c.slotWidth)
    else r.laneLevel half j
  let j := k % c.frameLength
  match c.framing with
  | .pulse => level .first .first j
  | .split => if j < c.halfLength then level .second .first j else level .first .second (j - c.halfLength)

/-- A value sent in the span in progress of a LOCKED port, converted, if that is the span of a slot `inSpan` picks (R126);
`none` sends the idle word (R38, R129, R130). Of a span that has ended nothing more is sent (R132), and outside LOCKED the
lane keeps what its state gives it (R133). -/
def State.sendOn (s : State) (p : Port) (inSpan : Slot → Bool) (v : Option Word) : State :=
  s.modPort p fun r =>
    if r.state = .locked ∧ r.dueSlot.any inSpan then
      { r with dout := .carrying (keepTop r.config.sampleWidth (v.getD r.config.idleWord)) }
    else r

/-! ## The edges of SYNC (R105) -/

/-- What a change of SYNC marks. -/
inductive SyncEdge where
  | frameStart | mid
  deriving DecidableEq, Repr

/-- The edge a follower sees between two samples of SYNC (R105). -/
def Framing.edge (f : Framing) (before now : Bool) : Option SyncEdge :=
  match f, before, now with
  | .pulse, false, true => some .frameStart
  | .split, true, false => some .frameStart
  | .split, false, true => some .mid
  | _, _, _ => none

/-- The edge that the last of some samples makes after the sample `before`, if no earlier one makes an edge. The first sample
after PORT-START is only a reference (R105). -/
def Framing.seen (f : Framing) : Option Bool → List Bool → Option SyncEdge
  | _, [] => none
  | none, x :: xs => f.seen (some x) xs
  | some b, x :: xs =>
    match f.edge b x, xs with
    | some e, [] => some e
    | some _, _ :: _ => none
    | none, xs => f.seen (some x) xs

/-- Bit clocks counted up to now. -/
def FramePos.clocks : FramePos → Nat
  | .notCounting => 0
  | .counting _ c => c

/-- The half in progress; a position that is not counted lies in the first. -/
def FramePos.half : FramePos → Half
  | .notCounting => .first
  | .counting h _ => h

/-- The port samples SYNC: a follower that is not OFF (R101, R105). -/
def PortRec.samplesSync (r : PortRec) : Bool := r.config.role = .follower && r.state ≠ .off

/-- The samples since the last edge are those of an edge of this kind: the last of them makes it, none before does, and in
LOCKING and LOCKED they reach as far as the frame position (R105, R106). The manual does not name an early edge seen at the very
bit clock at which a slot comes due or is complete: the model accepts the edge, after the slot event, which stands (DESIGN
CHOICE, log entry 29). -/
def PortRec.sees (r : PortRec) (kind : SyncEdge) (samples : List Bool) : Bool :=
  r.samplesSync && r.config.framing.seen r.sync samples = some kind
  && (!(r.state = .locking || r.state = .locked) || decide (r.pos.clocks ≤ samples.length))

/-! ## BCLK and SYNC of a leader (R103) -/

/-- The REFCLK periods of one leader bit clock (R103). -/
def LeaderClock.bitClockPeriod (c : LeaderClock) : Nat := 2 * (c.divider + 1)

/-- SYNC as a leader drives it at bit clock `k` of a frame: high during bit clock 0 under PULSE, high in the second half
under SPLIT (R103). -/
def LeaderClock.syncLevel (c : LeaderClock) (k : Nat) : Bool :=
  match c.framing with
  | .pulse => k == 0
  | .split => decide (c.frameLength / 2 ≤ k)

/-- The Clock Generator drives BCLK and SYNC of a port: a started leader (R101 to R103). -/
def PortRec.drivesClock (r : PortRec) : Bool := r.clock.isSome

/-! ## Which slot events a port raises (R124, R132) -/

/-- The port can come from its frame position to half `h` of the frame: it is there, or it is a leader, whose second half
follows the first by the Clock Generator (R103, R124). -/
def PortRec.reaches (r : PortRec) (h : Half) : Bool :=
  r.pos ≠ .notCounting && (r.pos.half = h || (r.config.role = .leader && r.pos.half = .first))

/-- A slot event of a LOCKED port at bit clock `c` of the half of slot `n`: the slot has a span, the half is in progress, and
the bit clock is not past; `again` where it may be the bit clock of the frame position itself (R124, R132). -/
def PortRec.raises (r : PortRec) (n : Slot) (c : Nat) (again : Bool) : Bool :=
  let h := r.config.halfOf n
  r.state = .locked && decide (n.val < r.config.slots) && r.reaches h
  && (r.pos.half ≠ h || decide (r.pos.clocks < c) || (again && decide (r.pos.clocks = c)))

/-- A slot due is raised: its first bit clock comes after the frame position, or is that of the edge itself (R124). -/
def PortRec.raisesDue (r : PortRec) (n : Slot) : Bool := r.raises n (r.config.spanStart n) r.dueSlot.isNone

/-- A slot complete is raised: its last bit clock comes after the frame position (R124). -/
def PortRec.raisesComplete (r : PortRec) (n : Slot) : Bool := r.raises n (r.config.spanEnd n) false

/-- The frame position moves to bit clock `c` of half `h`; a leader that passes into the second half does so at exactly half
the frame length, where the first half's tail bit falls (R103, R123). -/
def PortRec.reach (r : PortRec) (h : Half) (c : Nat) : PortRec :=
  if r.pos.half = h then { r with pos := .counting h c }
  else { r with pos := .counting h c, tail := r.tailAfter r.pos.half r.config.halfLength, dueSlot := none }

end Sys2Proof.Machine
end

