-- ==== Sys2Proof/Machine/Flight.lean ====
section
/-! DEFINITION. Events in flight: what each does where it is taken, and the order in which the events of one port are taken
(R48, R49, R117 to R119, R124, R137). -/

namespace Sys2Proof.Machine

/-! ## Frame starts, LOCKED exits and dormancy changes (R56, R58, R117, R119) -/

/-- The Patch Controller and then the Sample Exchange take a frame start. The LOCKED entry is taken with its frame start:
the view changes and a dormancy change is handed on; no endpoint waits there (R35, R56, R117, R119). Otherwise the waiting
endpoints are applied. A frame start of a port held as not LOCKED applies nothing (R56). -/
def State.onFrameStart (s : State) (p : Port) (entry : Bool) : State :=
  if entry then ((s.setPc p true).raise (.dormancyChange p true)).exchangeFrameStart p
  else if s.pcHolds p then (s.applyOn p false).exchangeFrameStart p
  else s

/-- The Patch Controller takes a LOCKED exit: the port is held as not LOCKED, every endpoint on it is applied, and a
dormancy change is handed on (R36, R58, R119). R36 lets either the releases or the dormancy change reach the Sample Exchange
first: in the model the releases come with the exit and the change after them (DESIGN CHOICE, log entry 28). -/
def State.onLockedExit (s : State) (p : Port) : State :=
  ((s.setPc p false).applyOn p true).raise (.dormancyChange p false)

/-! ## Taking one event -/

/-- An event is taken: it leaves the events in flight and has its effect. The answer to a take is sent in the span of the
destination's first slot, that to a second-slot request in the span of a later slot (R4, R38, R43). A dormancy change that
is not in flight tells of no change: it must be the state in which the Patch Controller holds the port (log entry 2). -/
def State.takeEvent (s : State) (e : Event) : State :=
  let t := s.consume e
  match e with
  | .frameStart p entry => t.onFrameStart p entry
  | .lockedExit p => t.onLockedExit p
  | .dormancyChange p entered =>
    if e ∈ s.raised ∨ entered = s.pcHolds p then t.changeDormancy p entered else t
  | .arrival n p q x => t.arrive n p q x
  | .take n p first =>
    let r := t.takeFor n ⟨p, first⟩
    r.1.sendOn p (fun q => decide (q = first)) r.2
  | .secondSlotRequest n p first =>
    let r := t.secondFor n ⟨p, first⟩
    r.1.sendOn p (fun q => decide (first < q)) r.2

/-- The dormancy change that the taking of an event hands on. -/
def Event.handsOn : Event → Option Event
  | .frameStart p true => some (.dormancyChange p true)
  | .lockedExit p => some (.dormancyChange p false)
  | .frameStart _ false | .dormancyChange _ _ | .arrival _ _ _ _ | .take _ _ _ | .secondSlotRequest _ _ _ => none

/-- An event is taken, with the dormancy change it hands on. -/
def State.settleEvent (s : State) (e : Event) : State :=
  match e.handsOn with
  | some d => (s.takeEvent e).takeEvent d
  | none => s.takeEvent e

/-- Events are taken one after the other. -/
def State.settle (s : State) (es : List Event) : State := es.foldl State.settleEvent s

/-! ## The order of one port's events -/

/-- The dormancy changes of a port in flight to the Sample Exchange, oldest first. Each was handed on for an event of the
port that has been taken, so they come before what the port has raised since. -/
def State.dormancies (s : State) (p : Port) : List Event := s.raised.filter fun e => e.port = p && e.isDormancy

/-- What a port has raised and is still in flight, oldest first. -/
def State.flight (s : State) (p : Port) : List Event := s.raised.filter fun e => e.port = p && !e.isDormancy

/-- The events up to the last that `must` picks. -/
def upToLast (must : Event → Bool) (es : List Event) : List Event := (es.reverse.dropWhile fun e => !must e).reverse

/-- Events of a port with the dormancy changes that come before them; none where there are none. -/
def State.withDormancies (s : State) (p : Port) (es : List Event) : List Event :=
  if es.isEmpty then [] else s.dormancies p ++ es

/-- What must be taken before an event (R118, R124):
- before a dormancy change, the earlier ones of its port;
- before a frame start, a take or a second-slot request, all that its port has raised before it;
- before an arrival the same; earlier arrivals alone leave the port's dormancy changes in flight (R47);
- before a LOCKED exit the same but for the arrivals just before it, which may be taken after it (R47, R49). -/
def State.ahead (s : State) (e : Event) : List Event :=
  let p := e.port
  let older := (s.flight p).takeWhile fun x => x ≠ e
  match e with
  | .dormancyChange _ _ => (s.dormancies p).takeWhile fun x => x ≠ e
  | .frameStart _ _ | .take _ _ _ | .secondSlotRequest _ _ _ => s.dormancies p ++ older
  | .arrival _ _ _ _ => if older.all Event.isArrival then older else s.dormancies p ++ older
  | .lockedExit _ => s.withDormancies p (upToLast (fun x => !x.isArrival) older)

/-- An event is taken in its place: what must come before it is taken first. -/
def State.takeInOrder (s : State) (e : Event) : State := (s.settle (s.ahead e)).takeEvent e

/-- Everything of a port but the arrivals last raised is taken, as its slot events and PORT-STOP require (R117, R118, R124):
those arrivals and the LOCKED exit of the stop may be taken in either order (R47, R49). -/
def State.settlePort (s : State) (p : Port) : State :=
  s.settle (s.dormancies p ++ upToLast (fun e => !e.isArrival) (s.flight p))

/-- Everything of a port is taken, as the LOCKED entry of PORT-START requires, which is itself taken within the command (R118,
R119, R137). -/
def State.settleAll (s : State) (p : Port) : State := s.settle (s.dormancies p ++ s.flight p)

/-- The takes and second-slot requests of a port are answered, with all that comes before them: every due is answered in
time for its slot, so before the port's next edge (R124, R132). -/
def State.answers (s : State) (p : Port) : State :=
  s.settle (s.withDormancies p (upToLast Event.isRequest (s.flight p)))

end Sys2Proof.Machine
end

