-- ==== Sys2Proof/Machine/Framing.lean ====
section
/-! DEFINITION. Port framing and lock: sync edges, leader frame starts, the loss timer, and the taking of frame starts, LOCKED
exits and dormancy changes (chapter 5, sections 2.4 and 3.2). -/

namespace Sys2Proof.Machine

/-! ## Edges (R105 to R111, R115) -/

/-- A frame start edge on a follower at its last SYNC sample: bit clock 0 of a new frame, not bad, loss timer from 0, latch
absent, no slot in progress (R106, R109, R110, R117). -/
def PortRec.newFrame (r : PortRec) (samples : List Bool) : PortRec :=
  { r with
    pos := .counting .first 0, bad := false, lossTimer := some 0, latch := none, dueSlot := none
    sync := samples.getLast?, tail := false }

/-- The same edge on time: bit clock 0 may carry the old frame's tail bit (R123). -/
def PortRec.nextFrame (r : PortRec) (samples : List Bool) : PortRec :=
  let ended := r.config.lastHalf
  { r.newFrame samples with tail := decide (r.pos.half = ended) && r.tailAfter ended samples.length }

/-- The first frame start edge seen in ARMED: its bit clock, counted from the first after PORT-START, may be bit clock 0 of a
free-running frame (R108, R133). -/
def PortRec.firstFrame (r : PortRec) (samples : List Bool) : PortRec :=
  let k := r.pos.clocks + samples.length - 1
  { r.newFrame samples with
    tail := decide (r.config.dataDelay = 1 ∧ k % r.config.frameLength = 0) && r.armedLevel k }

/-- A frame start edge at bit clock `k` is on time: `k` reaches the frame length, or half of it from the mid edge of a SPLIT
frame (R106, R107). -/
def PortRec.onTime (r : PortRec) (k : Nat) : Bool :=
  match r.config.framing, r.pos with
  | .split, .counting .second _ => decide (r.config.halfLength ≤ k)
  | _, _ => decide (r.config.frameLength ≤ k)

/-- A frame error: the count rises, the latch is cleared, FRAME_ERROR is posted (R110 to R112). -/
def State.frameError (s : State) (p : Port) : State :=
  (s.modPort p fun r => { r with frameErrors := countUp r.frameErrors, latch := none }).postPort p (.frameError p)

/-- The Port Engine leaves LOCKED for `next`: counts 0, the lane idles, PORT_CHANGE is posted and the exit raised (R111,
R114, R119, R133). -/
def State.leaveLocked (s : State) (p : Port) (next : PortState) : State :=
  let s := s.modPort p fun r =>
    { r with state := next, good := 0, consecutive := 0, latch := none, dueSlot := none, dout := r.config.idleLane }
  (s.postPort p (.portChange p)).raise (.lockedExit p)

/-- A frame start edge of a follower at the last of `samples` (R106, R108 to R111, R115). -/
def State.onFrameEdge (s : State) (p : Port) (samples : List Bool) : State :=
  let r := s.port p
  match r.state with
  | .off => s
  | .armed => s.setPort p { r.firstFrame samples with state := .locking, good := 0 }
  | .lost => s.setPort p { r.nextFrame samples with state := .locking, good := 0 }
  | .locking =>
    if r.onTime samples.length then
      let good := if r.bad then r.good else r.good + 1
      if 2 ≤ good then
        let s := s.setPort p { r.nextFrame samples with state := .locked, good := 0, consecutive := 0 }
        (s.postPort p (.portChange p)).raise (.frameStart p true)
      else s.setPort p { r.nextFrame samples with good := good }
    else (s.frameError p).modPort p fun r => { r.newFrame samples with good := 0 }
  | .locked =>
    if r.onTime samples.length then
      (s.setPort p { r.nextFrame samples with consecutive := if r.bad then r.consecutive else 0 }).raise (.frameStart p false)
    else
      let s := s.frameError p
      if r.consecutive + 1 < 3 then
        (s.modPort p fun r => { r.newFrame samples with consecutive := r.consecutive + 1 }).raise (.frameStart p false)
      else (s.modPort p fun r => r.newFrame samples).leaveLocked p .locking

/-- The samples of SYNC up to a frame start edge (R105, R106). The answers to the dues of the frame that ends come first. -/
def State.frameStartEdge (s : State) (p : Port) (samples : List Bool) : State :=
  if (s.port p).sees .frameStart samples then (s.answers p).onFrameEdge p samples else s

/-- FRAME_START_EDGE (R106). -/
def execFrameStartEdge (p : Port) (samples : List Bool) (s : State) : Answer := .next (s.frameStartEdge p samples)

/-- A mid edge on a SPLIT follower at its last SYNC sample: bit clock 0 of the second half, no slot in progress (R107). -/
def PortRec.secondHalf (r : PortRec) (samples : List Bool) : PortRec :=
  { r with pos := .counting .second 0, dueSlot := none, sync := samples.getLast?, tail := false }

/-- The same edge on time: bit clock 0 may carry the first half's tail bit (R123). -/
def PortRec.nextHalf (r : PortRec) (samples : List Bool) : PortRec :=
  { r.secondHalf samples with tail := r.tailAfter .first samples.length }

/-- A mid edge of a SPLIT follower at the last of `samples` (R107, R110, R111). In ARMED and LOST, and in the second half of a
frame, it is ignored; the bit clocks of an ARMED port are counted on (R105, R115, R133). -/
def State.onMidEdge (s : State) (p : Port) (samples : List Bool) : State :=
  let r := s.port p
  match r.state, r.pos with
  | .locking, .counting .first _ =>
    if r.config.halfLength ≤ samples.length then s.setPort p (r.nextHalf samples)
    else (s.frameError p).modPort p fun r => { r.secondHalf samples with bad := true, good := 0 }
  | .locked, .counting .first _ =>
    if r.config.halfLength ≤ samples.length then s.setPort p (r.nextHalf samples)
    else
      let s := (s.frameError p).modPort p fun r =>
        { r.secondHalf samples with bad := true, consecutive := r.consecutive + 1 }
      if r.consecutive + 1 < 3 then s else s.leaveLocked p .locking
  | .armed, _ => s.setPort p { r with pos := .counting .first (r.pos.clocks + samples.length), sync := samples.getLast? }
  | .off, _ | .lost, _ | .locking, _ | .locked, _ => s.setPort p { r with sync := samples.getLast? }

/-- The samples of SYNC up to a mid edge (R105, R107). The answers to the dues of the half that ends come first. -/
def State.midEdge (s : State) (p : Port) (samples : List Bool) : State :=
  if (s.port p).sees .mid samples then (s.answers p).onMidEdge p samples else s

/-- MID_EDGE (R107). -/
def execMidEdge (p : Port) (samples : List Bool) (s : State) : Answer := .next (s.midEdge p samples)

/-! ## Leader frames (R103, R104, R117) -/

/-- The frame boundary of a leader: bit clock 0 of a new frame, which carries the old frame's tail bit (R103, R117, R123). -/
def PortRec.leaderFrame (r : PortRec) : PortRec :=
  let ended := r.config.lastHalf
  { r with
    pos := .counting .first 0, latch := none, dueSlot := none
    tail := decide (r.pos.half = ended) && r.tailAfter ended ((r.config.slotsOf ended).2 * r.config.slotWidth) }

/-- A frame boundary of a started leader after its first: a new frame and a frame start (R103, R104, R117). The answers to
the dues of the frame that ends come first. -/
def State.leaderFrameStart (s : State) (p : Port) : State :=
  if (s.port p).config.role = .leader ∧ (s.port p).state = .locked then
    ((s.answers p).modPort p PortRec.leaderFrame).raise (.frameStart p false)
  else s

/-- LEADER_FRAME_START (R103). -/
def execLeaderFrameStart (p : Port) (s : State) : Answer := .next (s.leaderFrameStart p)

/-! ## The loss timer (R113, R114) -/

/-- The expiry of a follower's loss timer in LOCKING or LOCKED: LOST, timer stopped, frame abandoned; in LOCKED it is a
LOCKED exit (R114), and the answers to the dues of the frame come first (R132). -/
def State.expire (s : State) (p : Port) : State :=
  if (s.port p).config.role = .leader then s
  else
    match (s.port p).state with
    | .locking => s.modPort p fun r =>
        { r with state := .lost, lossTimer := none, latch := none, good := 0, consecutive := 0, dueSlot := none }
    | .locked => ((s.answers p).modPort p fun r => { r with lossTimer := none }).leaveLocked p .lost
    | .off | .armed | .lost => s

/-- LOSS_EXPIRY (R114). -/
def execLossExpiry (p : Port) (s : State) : Answer := .next (s.expire p)

/-- A loss tick at one port: a running timer counts, and expires when it reaches the timeout (R114). Where the tick meets a
frame start edge that is taken first, R116 has no expiry follow, while by R114 the count 1 of the restarted timer reaches a
timeout of 1: with that timeout the model lets the port expire (DESIGN CHOICE, log entry 26). -/
def State.tick (s : State) (p : Port) : State :=
  match (s.port p).lossTimer with
  | none => s
  | some c =>
    if (s.port p).config.lossTimeout ≤ c + 1 then s.expire p
    else s.modPort p fun r => { r with lossTimer := some (c + 1) }

/-- LOSS_TICK, handed to every Port Engine (R113). -/
def execLossTick (s : State) : Answer := .next (allPorts.foldl State.tick s)

/-! ## The events at the Patch Controller and the Sample Exchange -/

/-- FRAME_START (R56). -/
def execFrameStart (p : Port) (entry : Bool) (s : State) : Answer := .next (s.takeInOrder (.frameStart p entry))

/-- LOCKED_EXIT (R58). -/
def execLockedExit (p : Port) (s : State) : Answer := .next (s.takeInOrder (.lockedExit p))

/-- DORMANCY_CHANGE (R35, R36). -/
def execDormancyChange (p : Port) (entered : Bool) (s : State) : Answer :=
  .next (s.takeInOrder (.dormancyChange p entered))

end Sys2Proof.Machine
end

