-- ==== Sys2Proof/Machine/PortCommands.lean ====
section
/-! DEFINITION. PORT-SET, PORT-START, PORT-STOP and READ-PORT (sections 5.1, 5.2 and 5.8). -/

namespace Sys2Proof.Machine

/-! ## PORT-SET (R99) -/

def portSetChecks (t : Taken) (s : State) : List Check :=
  [ wrongLength t 13, supervisorOnly t, badParam (portConfigOk t),
    ((s.port (portOf (t.param 0))).state ≠ .off, .badState) ]

def carryPortSet (t : Taken) (s : State) : Reply :=
  (s.modPort (portOf (t.param 0)) fun r => { r with config := portConfigOf t }).ok []

/-- PORT-SET (R99). -/
def execPortSet (t : Taken) (s : State) : Answer := hostCommand 0x40 t (portSetChecks t) (carryPortSet t) s

/-! ## PORT-START (R101, R104) -/

/-- An OFF port starts: a follower is ARMED, its bit clocks counted from the first after the command and its first SYNC sample
to come; a leader is LOCKED at its first frame start, whose LOCKED entry is posted and taken within the command, after all that
the port has raised before, arrivals included (R101, R104, R105, R118, R119, R133, R137). -/
def State.startPort (s : State) (p : Port) : State :=
  let c := (s.port p).config
  let started (r : PortRec) : PortRec :=
    { r with
      good := 0, consecutive := 0, bad := false, lossTimer := none, pos := .counting .first 0, dueSlot := none
      sync := none, tail := false }
  match c.role with
  | .follower => s.modPort p fun r => { started r with state := .armed, dout := c.idleLane }
  | .leader =>
    let s := (s.settleAll p).modPort p fun r =>
      { started r with
        state := .locked, latch := none, clock := some ⟨c.divider, c.framing, c.frameLength⟩ }
    (s.postPort p (.portChange p)).settleEvent (.frameStart p true)

def portStartChecks (t : Taken) (s : State) : List Check :=
  [ wrongLength t 1, supervisorOnly t, badParam (inPort (t.param 0)),
    ((s.port (portOf (t.param 0))).state ≠ .off, .badState) ]

def carryPortStart (t : Taken) (s : State) : Reply :=
  let p := portOf (t.param 0)
  let s := s.startPort p
  s.ok [portStateByte (s.port p).state]

/-- PORT-START (R101). -/
def execPortStart (t : Taken) (s : State) : Answer := hostCommand 0x41 t (portStartChecks t) (carryPortStart t) s

/-! ## PORT-STOP (R102, R119) -/

/-- The Port Engine stops: everything but the configuration record and the frame error count returns to its power-on value
(R102, R122). -/
def PortRec.stop (r : PortRec) : PortRec :=
  { PortRec.powerOn with config := r.config, frameErrors := r.frameErrors }

/-- A port stops; stopping an OFF port changes nothing. What the port raised before is taken first; if it was LOCKED its exit
is posted and taken within the command, dormancy change included (R102, R118, R119). -/
def State.stopPort (s : State) (p : Port) : State :=
  if (s.port p).state = .off then s
  else
    let s := s.settlePort p
    let was := (s.port p).state
    let s := s.modPort p PortRec.stop
    if was = .locked then (s.postPort p (.portChange p)).settleEvent (.lockedExit p) else s

def portStopChecks (t : Taken) (_s : State) : List Check :=
  [ wrongLength t 1, supervisorOnly t, badParam (inPort (t.param 0)) ]

def carryPortStop (t : Taken) (s : State) : Reply :=
  let p := portOf (t.param 0)
  (s.stopPort p).ok [portStateByte (s.port p).state]

/-- PORT-STOP (R102). -/
def execPortStop (t : Taken) (s : State) : Answer := hostCommand 0x42 t (portStopChecks t) (carryPortStop t) s

/-! ## READ-PORT (R121) -/

/-- The READ-PORT payload: 18 bytes. -/
def PortRec.payload (r : PortRec) : List Byte :=
  r.config.bytes ++ [portStateByte r.state] ++ countBytes r.frameErrors
  ++ [byte r.good, byte r.consecutive, optByte byte r.lossTimer]

def readPortChecks (t : Taken) (_s : State) : List Check :=
  [ wrongLength t 2, (t.link = .aux && t.param 1 == 1, .denied), badParam (inPort (t.param 0) && inBool (t.param 1)) ]

def carryReadPort (t : Taken) (s : State) : Reply :=
  let p := portOf (t.param 0)
  let payload := (s.port p).payload
  (if t.param 1 = 1 then s.modPort p fun r => { r with frameErrors := 0 } else s).ok payload

/-- READ-PORT (R121). -/
def execReadPort (t : Taken) (s : State) : Answer := hostCommand 0x43 t (readPortChecks t) (carryReadPort t) s

end Sys2Proof.Machine
end

