-- ==== Sys2Proof/Machine/Reads.lean ====
section
/-! DEFINITION. READ-PATCH, READ-TABLE, READ-SLOTMAP, READ-COUNTS and frames of an unknown code (sections 1.5, 8.7, 9.2 and
10.5). -/

namespace Sys2Proof.Machine

/-! ## READ-PATCH (R21) -/

/-- A source in three bytes, absent as three 0xFF. -/
def sourceBytes : Option Source → List Byte
  | none => [absentByte, absentByte, absentByte]
  | some src => [portByte src.port, slotByte src.left, optByte slotByte src.right]

/-- One destination in eight bytes. -/
def Patch.destBytes (r : Patch) (d : Destination) : List Byte :=
  [portByte d.port, formByte d.form, slotByte d.first, optByte slotByte d.second,
    phaseByte d.phase + 4 * markerByte d.marker + 16 * boolByte d.muted + 32 * boolByte d.memory.isSome,
    byte (r.owedCount d.name)] ++ countBytes d.underruns

/-- The WAITING ticket that names a patch, and its role: 0 none, 1 subject, 2 donor (R21). -/
def State.waitingBytes (s : State) (n : PatchNo) : List Byte :=
  match s.waitingTicket? n with
  | none => [absentByte, 0]
  | some t => [ticketByte t, if (s.ticket t).subject = some n then 1 else 2]

/-- The READ-PATCH payload (section 8.7). -/
def State.patchPayload (s : State) (n : PatchNo) : List Byte :=
  let r := s.patch n
  [patchStateByte r.state, byte r.owner.val, kindByte r.kind, byte r.priority.val,
    boolByte r.locked + 2 * boolByte r.muteTarget]
  ++ sourceBytes r.source ++ sourceBytes r.pendingSource
  ++ [intakeByte r.intake, byte r.depth, byte r.startLevel, overflowByte r.overflow, underrunByte r.underrun]
  ++ wordBytes r.fill ++ [byte r.queue.length] ++ countBytes r.overflows ++ [r.threshold]
  ++ s.waitingBytes n ++ listBytes r.destBytes r.dests

def readPatchChecks (t : Taken) (s : State) : List Check :=
  [ wrongLength t 1, badParam (inPatch (t.param 0)), s.missing (patchOf (t.param 0)) ]

def carryReadPatch (t : Taken) (s : State) : Reply := s.ok (s.patchPayload (patchOf (t.param 0)))

/-- READ-PATCH (R21). -/
def execReadPatch (t : Taken) (s : State) : Answer := hostCommand 0x30 t (readPatchChecks t) (carryReadPatch t) s

/-! ## READ-TABLE (R22) -/

/-- One install-order entry in three bytes. -/
def State.tableEntry (s : State) (n : PatchNo) : List Byte :=
  let r := s.patch n
  [patchByte n, byte r.owner.val,
    patchStateByte r.state + 4 * byte r.priority.val + 16 * boolByte r.locked + 32 * boolByte (s.busy n)]

def readTableChecks (t : Taken) (_s : State) : List Check :=
  [ wrongLength t 1, badParam (decide ((t.param 0).toNat < 48)) ]

def carryReadTable (t : Taken) (s : State) : Reply :=
  let entries := (s.order.drop (t.param 0).toNat).take Config.tableEntries
  s.ok ([byte s.order.length, s.changes] ++ listBytes s.tableEntry entries)

/-- READ-TABLE (R22). -/
def execReadTable (t : Taken) (s : State) : Answer := hostCommand 0x31 t (readTableChecks t) (carryReadTable t) s

/-! ## READ-SLOTMAP (R23) -/

/-- One output entry in three bytes (section 8.7). The table does not say what the weights of a holder or a reservation hold
in the position byte where there is none: the model sends 0 in them (DESIGN CHOICE, log entry 25). -/
def State.outEntryBytes (s : State) (p : Port) (q : Slot) : List Byte :=
  let e := s.outEntry p q
  let holderPos : Byte := match e.holder with
    | none => 0
    | some h => byte ((s.patch h.patch).position ⟨p, h.first⟩) + 4 * boolByte h.second
  let resvPos : Byte := match e.resv with
    | none => 0
    | some v => byte ((s.patch v.patch).position ⟨p, v.first⟩)
  [optByte (fun h => patchByte h.patch) e.holder, optByte (fun v => patchByte v.patch) e.resv, holderPos + 16 * resvPos]

/-- One input entry in two bytes. The table gives the weights of the role no value where the entry carries no claim: the model
sends 0 in them (DESIGN CHOICE, log entry 25). -/
def inEntryBytes : Option InClaim → List Byte
  | none => [0, absentByte]
  | some c => [(match c.kind with | .holder => 1 | .reservation => 2) + 4 * inRoleByte c.role, patchByte c.patch]

def readSlotmapChecks (t : Taken) (_s : State) : List Check :=
  [ wrongLength t 2, badParam (inPort (t.param 0) && decide ((t.param 1).toNat < 2)) ]

def carryReadSlotmap (t : Taken) (s : State) : Reply :=
  let p := portOf (t.param 0)
  let entry (q : Slot) : List Byte := if t.param 1 = 0 then inEntryBytes (s.inEntry p q) else s.outEntryBytes p q
  s.ok ([byte (s.port p).config.slots, portStateByte (s.port p).state] ++ (List.finRange 16).flatMap entry)

/-- READ-SLOTMAP (R23). -/
def execReadSlotmap (t : Taken) (s : State) : Answer := hostCommand 0x32 t (readSlotmapChecks t) (carryReadSlotmap t) s

/-! ## READ-COUNTS (R192) -/

/-- The READ-COUNTS payload. -/
def State.countsPayload (s : State) (n : PatchNo) : List Byte :=
  let r := s.patch n
  [patchByte n] ++ countBytes r.overflows
  ++ listBytes (fun d => [portByte d.port, slotByte d.first] ++ countBytes d.underruns) r.dests

/-- Every count of a patch set to 0 (R192). -/
def Patch.cleared (r : Patch) : Patch :=
  { r with overflows := 0, dests := r.dests.map fun d => { d with underruns := 0 } }

def readCountsChecks (t : Taken) (s : State) : List Check :=
  let n := patchOf (t.param 0)
  [ wrongLength t 2, badParam (inPatch (t.param 0) && inBool (t.param 1)), s.missing n,
    (t.link = .aux && t.param 1 == 1 && !s.auxOwned n, .denied) ]

def carryReadCounts (t : Taken) (s : State) : Reply :=
  let n := patchOf (t.param 0)
  (if t.param 1 = 1 then s.modPatch n Patch.cleared else s).ok (s.countsPayload n)

/-- READ-COUNTS (R192). -/
def execReadCounts (t : Taken) (s : State) : Answer := hostCommand 0x33 t (readCountsChecks t) (carryReadCounts t) s

/-! ## A frame of an unknown code (R170) -/

/-- UNKNOWN_CODE: BAD_FRAME, echoing the code as received (R170). -/
def execUnknownCode (code : Byte) (t : Taken) (s : State) : Answer :=
  hostCommand code t (fun _ => [(true, .badFrame)]) (fun s => s.ok []) s

end Sys2Proof.Machine
end

