-- ==== Sys2Proof/Machine/Settings.lean ====
section
/-! DEFINITION. LOCK, UNLOCK and TUNE (sections 9.5 and 9.6). -/

namespace Sys2Proof.Machine

/-! ## LOCK and UNLOCK (R180, R181) -/

def lockChecks (t : Taken) (s : State) : List Check :=
  let n := patchOf (t.param 0)
  [ wrongLength t 1, supervisorOnly t, badParam (inPatch (t.param 0)), s.missing n,
    ((s.patch n).state ≠ .live || s.isDonor n, .badState) ]

def carryLock (t : Taken) (s : State) : Reply :=
  (s.modPatch (patchOf (t.param 0)) fun r => { r with locked := true }).ok []

/-- LOCK (R180). -/
def execLock (t : Taken) (s : State) : Answer := hostCommand 0x28 t (lockChecks t) (carryLock t) s

def unlockChecks (t : Taken) (s : State) : List Check :=
  [ wrongLength t 1, supervisorOnly t, badParam (inPatch (t.param 0)), s.missing (patchOf (t.param 0)) ]

def carryUnlock (t : Taken) (s : State) : Reply :=
  (s.modPatch (patchOf (t.param 0)) fun r => { r with locked := false }).ok []

/-- UNLOCK (R181). -/
def execUnlock (t : Taken) (s : State) : Answer := hostCommand 0x29 t (unlockChecks t) (carryUnlock t) s

/-! ## TUNE (R182) -/

/-- Whether a TUNE selects field `k` of priority, underrun policy, fill word, alert threshold (R182). -/
def tuneSelects (t : Taken) (k : Nat) : Bool := (t.param 1).getLsbD k

/-- Only the selected values are judged (R172, R182). -/
def tuneFieldsOk (t : Taken) : Bool :=
  inPatch (t.param 0) && decide ((t.param 1).toNat < 16)
  && (!tuneSelects t 0 || decide ((t.param 2).toNat < 4))
  && (!tuneSelects t 1 || decide ((t.param 3).toNat < 2))

def tuneChecks (t : Taken) (s : State) : List Check :=
  let n := patchOf (t.param 0)
  [ wrongLength t 9, badParam (tuneFieldsOk t), s.missing n, s.noRight t n ]

/-- The record with each selected field replaced (R182). -/
def Patch.tuned (r : Patch) (t : Taken) : Patch :=
  { r with
    priority := if tuneSelects t 0 then Fin.ofNat 4 (t.param 2).toNat else r.priority
    underrun := if tuneSelects t 1 then underrunOf (t.param 3) else r.underrun
    fill := if tuneSelects t 2 then wordOf (t.paramBytes 5 4) else r.fill
    threshold := if tuneSelects t 3 then t.param 4 else r.threshold }

def carryTune (t : Taken) (s : State) : Reply :=
  let n := patchOf (t.param 0)
  let r := (s.patch n).tuned t
  (s.setPatch n r).ok
    ([patchByte n, byte r.priority.val, underrunByte r.underrun, r.threshold] ++ wordBytes r.fill)

/-- TUNE (R182). -/
def execTune (t : Taken) (s : State) : Answer := hostCommand 0x2A t (tuneChecks t) (carryTune t) s

end Sys2Proof.Machine
end

