-- ==== Sys2Proof/Machine/SlotService.lean ====
section
/-! DEFINITION. Slot service: slot completes and dues at the Port Engine, arrivals, takes and second-slot requests at the
Sample Exchange (chapters 2 and 6). -/

namespace Sys2Proof.Machine

/-! ## At the Port Engine -/

/-- What the Port Engine does with the value of a completed slot, by the entry it finds (R127, R128). -/
def State.inputValue (s : State) (p : Port) (n : Slot) (v : Word) : State :=
  match s.inEntry p n with
  | some ⟨.holder, m, .single⟩ => s.raise (.arrival m p n (.single v))
  | some ⟨.holder, m, .left⟩ => s.modPort p fun r => { r with latch := some ⟨m, v⟩ }
  | some ⟨.holder, m, .right⟩ =>
    match (s.port p).latch with
    | some l =>
      if l.patch = m then (s.modPort p fun r => { r with latch := none }).raise (.arrival m p n (.pair l.value v)) else s
    | none => s
  | some ⟨.reservation, _, _⟩ | none => s

/-- An input slot completes with span bits `din` (R124, R125, R127). What the port has raised before is taken first, but for
the arrivals still on their way (R117, R124). -/
def State.slotComplete (s : State) (p : Port) (n : Slot) (din : Word) : State :=
  if (s.port p).raisesComplete n then
    let s := (s.settlePort p).modPort p fun r => r.reach (r.config.halfOf n) (r.config.spanEnd n)
    s.inputValue p n (keepTop (s.port p).config.sampleWidth din)
  else s

/-- SLOT_COMPLETE (R127). -/
def execSlotComplete (p : Port) (n : Slot) (din : Word) (s : State) : Answer := .next (s.slotComplete p n din)

/-- The span of an output slot begins (R123, R124). -/
def PortRec.begins (r : PortRec) (n : Slot) : PortRec :=
  { r.reach (r.config.halfOf n) (r.config.spanStart n) with dueSlot := some n }

/-- An output slot comes due: the entry's holder alone decides (R129). What the port has raised before is taken first, so that
every due before it has been answered, but for the arrivals still on their way (R117, R124). -/
def State.slotDue (s : State) (p : Port) (n : Slot) : State :=
  if (s.port p).raisesDue n then
    let s := (s.settlePort p).modPort p fun r => r.begins n
    match (s.outEntry p n).holder with
    | none => s.sendOn p (fun q => decide (q = n)) none
    | some h => if h.second then s.raise (.secondSlotRequest h.patch p h.first) else s.raise (.take h.patch p h.first)
  else s

/-- SLOT_DUE (R129). -/
def execSlotDue (p : Port) (n : Slot) (s : State) : Answer := .next (s.slotDue p n)

/-! ## At the Sample Exchange -/

/-- ARRIVAL (R30, R31). -/
def execArrival (patch : PatchNo) (p : Port) (n : Slot) (x : Sample) (s : State) : Answer :=
  .next (s.takeInOrder (.arrival patch p n x))

/-- TAKE (R38): the answer is sent in the port's slot. -/
def execTake (patch : PatchNo) (p : Port) (first : Slot) (s : State) : Answer :=
  .next (s.takeInOrder (.take patch p first))

/-- SECOND_SLOT_REQUEST (R43): the answer is sent in the port's slot. -/
def execSecondSlotRequest (patch : PatchNo) (p : Port) (first : Slot) (s : State) : Answer :=
  .next (s.takeInOrder (.secondSlotRequest patch p first))

end Sys2Proof.Machine
end

