-- ==== Sys2Proof/Machine/StagedEdits.lean ====
section
/-! DEFINITION. The staged edits INSTALL, RETIRE, REBIND, ADD-DEST, DROP-DEST, MUTE and UNMUTE (chapters 3 and 4). -/

namespace Sys2Proof.Machine

/-! ## INSTALL (R66, R84, R90 to R92, R194) -/

/-- The length INSTALL's own destination count gives (R170). -/
def installLength (t : Taken) : Check :=
  (!(decide (16 ≤ t.len.toNat ∧ t.len.toNat ≤ 36 ∧ t.len.toNat = 16 + 4 * t.destCount)), .badFrame)

/-- The record an INSTALL takes: the lowest-numbered FREE one, or the victim's (R7, R179). -/
def State.recordFor (s : State) (l : Link) (d : Descriptor) (donors : List PatchNo) : Option PatchNo :=
  match s.freeRecord? with
  | some n => some n
  | none => if d.mayEvict then s.victim? l d.priority donors else none

/-- A record at INSTALL acceptance (R7): PENDING until its ticket completes, which may be at once (R8). -/
def Descriptor.record (d : Descriptor) (owner : Fin 8) : Patch where
  state := .pending
  owner := owner
  kind := d.kind
  priority := d.priority
  locked := false
  muteTarget := false
  source := some d.source
  pendingSource := none
  intake := .waiting
  depth := d.depth
  startLevel := d.startLevel
  overflow := d.overflow
  underrun := d.underrun
  fill := d.fill
  queue := []
  overflows := 0
  threshold := 0
  dests := d.dests.map DestSpec.create

/-- The owner tag recorded: the descriptor's from the main link, the aux tag from the aux link (R139). -/
def State.ownerFor (s : State) (l : Link) (d : Descriptor) : Fin 8 :=
  match l with
  | .main => d.owner
  | .aux => s.rights.tag

/-- The endpoints of an INSTALL: the source activation, then one for each destination (R53, R85). -/
def State.installEndpoints (s : State) (d : Descriptor) : List Endpoint :=
  .sourceActivation d.source.port :: d.dests.map s.endpointFor

def installChecks (t : Taken) (s : State) : List Check :=
  let d := descriptorOf t
  [ installLength t,
    badParam (descriptorFieldsOk t && d.relationsOk),
    s.notGranted t (d.source.port :: d.dests.map DestSpec.port),
    s.donorBusy d.take d.dests,
    (s.inputClaimed d.source || d.dests.any (s.outputConflict t.link d.take none), .conflict),
    s.lacksTicket t.link,
    ((s.recordFor t.link d (donorsOf (s.installEndpoints d))).isNone, .tableFull) ]

/-- An accepted INSTALL: donors fixed, victim freed, record taken and appended, then ticket and endpoints (R66, R92,
R194). -/
def carryInstall (t : Taken) (s : State) : Reply :=
  let d := descriptorOf t
  let es := s.installEndpoints d
  let donors := donorsOf es
  let n := (s.recordFor t.link d donors).getD 0
  let victim := if s.freeRecord?.isNone then some n else none
  let owner := s.ownerFor t.link d
  let k := s.newTicket
  let s := match victim with
    | some v => s.evict v
    | none => s
  let s := (s.setPatch n (d.record owner)).listAppend n
  let s := s.markDonors es
  let s := s.stage k (openTicket t.link .install none n donors es) n
  s.accepted k n victim

/-- INSTALL (R66). -/
def execInstall (t : Taken) (s : State) : Answer := hostCommand 0x10 t (installChecks t) (carryInstall t) s

/-! ## RETIRE (R78 to R82) -/

def retireChecks (t : Taken) (s : State) : List Check :=
  let n := patchOf (t.param 0)
  [ wrongLength t 2,
    badParam (inPatch (t.param 0) && decide ((t.param 1).toNat < 2)),
    s.missing n, s.noRight t n, s.notLive n, s.subjectBusy n, s.lacksTicket t.link ]

/-- The endpoints of a RETIRE: the intake close, then one release for each destination in list order (R78). -/
def Patch.retireEndpoints (r : Patch) : List Endpoint :=
  (r.source.toList.map fun src => .intakeClose src.port) ++ r.dests.map fun d => .release d.name

/-- An accepted RETIRE (R78). -/
def carryRetire (t : Taken) (s : State) : Reply :=
  let n := patchOf (t.param 0)
  let k := s.newTicket
  let es := (s.patch n).retireEndpoints
  let s := s.modPatch n fun r =>
    { r with state := .retiring, dests := r.dests.map fun d => { d with marker := some .retire } }
  let s := s.stage k (openTicket t.link .retire (some (modeOf (t.param 1))) n [] es) n
  s.accepted k n none

/-- RETIRE (R78). -/
def execRetire (t : Taken) (s : State) : Answer := hostCommand 0x11 t (retireChecks t) (carryRetire t) s

/-! ## REBIND (R68, R69) -/

/-- The new source a REBIND names. -/
def rebindSource (t : Taken) : Source := ⟨portOf (t.param 1), slotOf (t.param 2), slotOf? (t.param 3)⟩

def rebindChecks (t : Taken) (s : State) : List Check :=
  let n := patchOf (t.param 0)
  let src := rebindSource t
  [ wrongLength t 4,
    badParam (inPatch (t.param 0) && inPort (t.param 1) && inSlot (t.param 2) && inSlotOrAbsent (t.param 3)
      && ((s.patch n).state = .free || sourceFits (s.patch n).kind src.left src.right)),
    s.missing n, s.noRight t n, s.notGranted t [src.port], s.notLive n, s.subjectBusy n,
    (s.inputClaimed src, .conflict), s.lacksTicket t.link ]

/-- An accepted REBIND (R68): the pending source is set, and moved at once where the new port is not LOCKED. -/
def carryRebind (t : Taken) (s : State) : Reply :=
  let n := patchOf (t.param 0)
  let k := s.newTicket
  let src := rebindSource t
  let s := s.modPatch n fun r => { r with pendingSource := some src }
  let s := s.stage k (openTicket t.link .rebind none n [] [.sourceMove src.port]) n
  s.accepted k n none

/-- REBIND (R68). -/
def execRebind (t : Taken) (s : State) : Answer := hostCommand 0x12 t (rebindChecks t) (carryRebind t) s

/-! ## ADD-DEST (R70, R84, R85) -/

/-- The destination an ADD-DEST names. -/
def addDestSpec (t : Taken) : DestSpec := destSpecOf (t.paramBytes 2 4)

/-- The TAKE option of an ADD-DEST. -/
def addDestTake (t : Taken) : Bool := (t.param 1).getLsbD 0

def addDestChecks (t : Taken) (s : State) : List Check :=
  let n := patchOf (t.param 0)
  let d := addDestSpec t
  let take := addDestTake t
  [ wrongLength t 6,
    badParam (inPatch (t.param 0) && decide ((t.param 1).toNat < 2) && destFieldsOk (t.paramBytes 2 4)
      && d.orderOk && ((s.patch n).state = .free || d.form.matchesKind (s.patch n).kind)),
    s.missing n, s.noRight t n, s.notGranted t [d.port],
    ((s.patch n).state ≠ .live || decide (Config.destinations ≤ (s.patch n).dests.length), .badState),
    s.subjectBusy n, s.donorBusy take [d],
    (s.outputConflict t.link take (some n) d, .conflict), s.lacksTicket t.link ]

/-- An accepted ADD-DEST (R70, R85). -/
def carryAddDest (t : Taken) (s : State) : Reply :=
  let n := patchOf (t.param 0)
  let k := s.newTicket
  let d := addDestSpec t
  let es := [s.endpointFor d]
  let s := s.modPatch n fun r => { r with dests := r.dests ++ [d.create] }
  let s := s.markDonors es
  let s := s.stage k (openTicket t.link .addDest none n (donorsOf es) es) n
  s.accepted k n none

/-- ADD-DEST (R70). -/
def execAddDest (t : Taken) (s : State) : Answer := hostCommand 0x13 t (addDestChecks t) (carryAddDest t) s

/-! ## DROP-DEST (R71) -/

/-- The destination a DROP-DEST names. -/
def dropDestName (t : Taken) : DestName := ⟨portOf (t.param 1), slotOf (t.param 2)⟩

def dropDestChecks (t : Taken) (s : State) : List Check :=
  let n := patchOf (t.param 0)
  [ wrongLength t 3,
    badParam (inPatch (t.param 0) && inPort (t.param 1) && inSlot (t.param 2)),
    s.missing n, ((s.patch n).dest? (dropDestName t) = none, .notFound), s.noRight t n,
    ((s.patch n).state ≠ .live || decide ((s.patch n).dests.length ≤ 1), .badState),
    s.subjectBusy n, s.lacksTicket t.link ]

/-- An accepted DROP-DEST (R71). -/
def carryDropDest (t : Taken) (s : State) : Reply :=
  let n := patchOf (t.param 0)
  let k := s.newTicket
  let nm := dropDestName t
  let s := s.mark n nm .drop
  let s := s.stage k (openTicket t.link .dropDest none n [] [.release nm]) n
  s.accepted k n none

/-- DROP-DEST (R71). -/
def execDropDest (t : Taken) (s : State) : Answer := hostCommand 0x14 t (dropDestChecks t) (carryDropDest t) s

/-! ## MUTE and UNMUTE (R72) -/

/-- The distinct ports of a destination list, in the order in which they first occur (R72). -/
def distinctPorts (ds : List Destination) : List Port :=
  ds.foldl (fun ps d => if d.port ∈ ps then ps else ps ++ [d.port]) []

def muteChecks (t : Taken) (s : State) : List Check :=
  let n := patchOf (t.param 0)
  [ wrongLength t 1, badParam (inPatch (t.param 0)),
    s.missing n, s.noRight t n, s.notLive n, s.subjectBusy n, s.lacksTicket t.link ]

/-- An accepted MUTE (`target` yes) or UNMUTE (no) (R72). -/
def carryMute (op : Op) (target : Bool) (t : Taken) (s : State) : Reply :=
  let n := patchOf (t.param 0)
  let k := s.newTicket
  let es := (distinctPorts (s.patch n).dests).map Endpoint.muteApply
  let s := s.modPatch n fun r => { r with muteTarget := target }
  let s := s.stage k (openTicket t.link op none n [] es) n
  s.accepted k n none

/-- MUTE (R72). -/
def execMute (t : Taken) (s : State) : Answer := hostCommand 0x15 t (muteChecks t) (carryMute .mute true t) s

/-- UNMUTE (R72). -/
def execUnmute (t : Taken) (s : State) : Answer := hostCommand 0x16 t (muteChecks t) (carryMute .unmute false t) s

end Sys2Proof.Machine
end

