-- ==== Sys2Proof/Machine/Tickets.lean ====
section
/-! DEFINITION. CANCEL, READ-TICKET and CLEAR-TABLE (sections 3.3, 3.10 and 4.4). -/

namespace Sys2Proof.Machine

/-! ## CANCEL (R73 to R76, R89) -/

/-- The edits that can be cancelled (R73). -/
def cancellable : Option Op → Bool
  | some .install | some .rebind | some .addDest => true
  | _ => false

/-- The ticket is not the aux link's own, or is an orphan (R149). -/
def Ticket.notAuxOwn (k : Ticket) : Bool := k.link = .main || k.orphan

def cancelChecks (t : Taken) (s : State) : List Check :=
  let k := s.ticket (ticketOf (t.param 0))
  [ wrongLength t 1, badParam (inTicket (t.param 0)),
    (k.state = .free, .notFound),
    (t.link = .aux && k.notAuxOwn, .denied),
    (!cancellable k.op, .badState),
    (k.state = .done, .tooLate) ]

/-- A WAITING ticket is cancelled: an INSTALL is rolled back in full, a REBIND or ADD-DEST withdrawn (R73 to R75, R89). -/
def State.cancelTicket (s : State) (k : TicketNo) : State :=
  let s' := match (s.ticket k).op, (s.ticket k).subject with
    | some .install, some n => (s.withdraw k).freePatch n
    | _, _ => s.withdraw k
  s'.endTicket k .cancelled

def carryCancel (t : Taken) (s : State) : Reply :=
  let k := ticketOf (t.param 0)
  (s.cancelTicket k).ok [ticketByte k]

/-- CANCEL (R73). -/
def execCancel (t : Taken) (s : State) : Answer := hostCommand 0x20 t (cancelChecks t) (carryCancel t) s

/-! ## READ-TICKET (R61) -/

/-- The position of an action in the list of R53. -/
def Endpoint.actionByte : Endpoint → Byte
  | .sourceActivation _ => 0
  | .sourceMove _ => 1
  | .destActivation _ => 2
  | .transfer _ _ _ => 3
  | .release _ => 4
  | .muteApply _ => 5
  | .intakeClose _ => 6

/-- An awaiting endpoint in five bytes: port, action, and for a destination action the patch, port and first slot of the
destination R53 names: the subject's, or the donor's for a transfer; absent for the other actions (R53, R61; log entry 11). -/
def Endpoint.bytes (subject : Option PatchNo) (e : Endpoint) : List Byte :=
  [portByte e.port, e.actionByte] ++
  match e with
  | .destActivation d | .release d => [optByte patchByte subject, portByte d.port, slotByte d.first]
  | .transfer d donor donorFirst => [patchByte donor, portByte d.port, slotByte donorFirst]
  | .sourceActivation _ | .sourceMove _ | .muteApply _ | .intakeClose _ => [absentByte, absentByte, absentByte]

/-- The READ-TICKET payload (R61, section 8.7). -/
def Ticket.payload (k : Ticket) : List Byte :=
  [ticketStateByte k.state, linkByte k.link, boolByte k.orphan, optByte opByte k.op, optByte patchByte k.subject,
    optByte modeByte k.mode]
  ++ listBytes (fun n => [patchByte n]) k.donors
  ++ [byte k.total]
  ++ listBytes (Endpoint.bytes k.subject) k.awaiting
  ++ [optByte endingByte k.ending]

def readTicketChecks (t : Taken) (s : State) : List Check :=
  let k := s.ticket (ticketOf (t.param 0))
  [ wrongLength t 1, badParam (inTicket (t.param 0)),
    (k.state = .free, .notFound),
    (t.link = .aux && k.notAuxOwn, .denied) ]

/-- The ticket number leaves a link's TICKET_DONE set (R61). -/
def State.unpostTicket (s : State) (l : Link) (k : TicketNo) : State :=
  let a := s.alerts l
  s.setAlerts l { a with ticketDone := dropMember a.ticketDone k.val }

/-- The report, then a DONE ticket read by its issuing link is freed (R61). -/
def carryReadTicket (t : Taken) (s : State) : Reply :=
  let no := ticketOf (t.param 0)
  let k := s.ticket no
  let s' := if k.state = .done ∧ k.link = t.link then (s.setTicket no Ticket.free).unpostTicket t.link no else s
  s'.ok k.payload

/-- READ-TICKET (R61). -/
def execReadTicket (t : Taken) (s : State) : Answer := hostCommand 0x21 t (readTicketChecks t) (carryReadTicket t) s

/-! ## CLEAR-TABLE (R94 to R97) -/

/-- The affected patches: not FREE, and under KEEP_LOCKED not locked (R94). -/
def State.clearAffected (s : State) (keepLocked : Bool) : List PatchNo :=
  (List.finRange 48).filter fun n => (s.patch n).state ≠ .free && !(keepLocked && (s.patch n).locked)

/-- The WAITING tickets that name an affected patch (R95). -/
def State.clearTickets (s : State) (affected : List PatchNo) : List TicketNo :=
  (List.finRange 12).filter fun t => affected.any fun n => (s.ticket t).names n

/-- One affected patch is freed; EVICTED is posted where its owner tag is the aux tag (R96). -/
def State.clearPatch (s : State) (n : PatchNo) : State :=
  (if s.auxOwned n then s.postEvicted n else s).freePatch n

/-- CLEAR-TABLE's work: the aborts, then the freeings (R95, R96). -/
def State.clearAll (s : State) (tickets : List TicketNo) (affected : List PatchNo) : State :=
  affected.foldl State.clearPatch (tickets.foldl (fun s t => (s.withdraw t).endTicket t .aborted) s)

def clearTableChecks (t : Taken) (_s : State) : List Check :=
  [ wrongLength t 1, supervisorOnly t, badParam (decide ((t.param 0).toNat < 2)) ]

def carryClearTable (t : Taken) (s : State) : Reply :=
  let affected := s.clearAffected (t.param 0 == 0)
  let tickets := s.clearTickets affected
  let s' := s.clearAll tickets affected
  s'.ok [byte affected.length, byte tickets.length, byte s'.order.length]

/-- CLEAR-TABLE (R94). -/
def execClearTable (t : Taken) (s : State) : Answer := hostCommand 0x38 t (clearTableChecks t) (carryClearTable t) s

end Sys2Proof.Machine
end

