-- ==== Sys2Proof/Machine/Dispatch.lean ====
section
/-! DEFINITION. One arm for each row of spec/opcode_table.json. -/

namespace Sys2Proof.Machine

def exec (i : Instr) (s : State) : Host.Outcome State Fault Refusal :=
  match i with
  | .install t => Sys2Proof.Machine.execInstall t s
  | .retire t => Sys2Proof.Machine.execRetire t s
  | .rebind t => Sys2Proof.Machine.execRebind t s
  | .addDest t => Sys2Proof.Machine.execAddDest t s
  | .dropDest t => Sys2Proof.Machine.execDropDest t s
  | .mute t => Sys2Proof.Machine.execMute t s
  | .unmute t => Sys2Proof.Machine.execUnmute t s
  | .cancel t => Sys2Proof.Machine.execCancel t s
  | .readTicket t => Sys2Proof.Machine.execReadTicket t s
  | .lock t => Sys2Proof.Machine.execLock t s
  | .unlock t => Sys2Proof.Machine.execUnlock t s
  | .tune t => Sys2Proof.Machine.execTune t s
  | .readPatch t => Sys2Proof.Machine.execReadPatch t s
  | .readTable t => Sys2Proof.Machine.execReadTable t s
  | .readSlotmap t => Sys2Proof.Machine.execReadSlotmap t s
  | .readCounts t => Sys2Proof.Machine.execReadCounts t s
  | .clearTable t => Sys2Proof.Machine.execClearTable t s
  | .portSet t => Sys2Proof.Machine.execPortSet t s
  | .portStart t => Sys2Proof.Machine.execPortStart t s
  | .portStop t => Sys2Proof.Machine.execPortStop t s
  | .readPort t => Sys2Proof.Machine.execReadPort t s
  | .readAlerts t => Sys2Proof.Machine.execReadAlerts t s
  | .ackAlerts t => Sys2Proof.Machine.execAckAlerts t s
  | .setAlertMask t => Sys2Proof.Machine.execSetAlertMask t s
  | .setAux t => Sys2Proof.Machine.execSetAux t s
  | .unknownCode code t => Sys2Proof.Machine.execUnknownCode code t s
  | .send pins => Sys2Proof.Machine.execSend pins s
  | .fetch pins => Sys2Proof.Machine.execFetch pins s
  | .status pins => Sys2Proof.Machine.execStatus pins s
  | .auxWriteFirstByte pins => Sys2Proof.Machine.execAuxWriteFirstByte pins s
  | .auxWriteEnd pins => Sys2Proof.Machine.execAuxWriteEnd pins s
  | .statusRead pins => Sys2Proof.Machine.execStatusRead pins s
  | .responseRead pins ending => Sys2Proof.Machine.execResponseRead pins ending s
  | .powerOnReset addr => Sys2Proof.Machine.execPowerOnReset addr s
  | .frameStartEdge p samples => Sys2Proof.Machine.execFrameStartEdge p samples s
  | .midEdge p samples => Sys2Proof.Machine.execMidEdge p samples s
  | .leaderFrameStart p => Sys2Proof.Machine.execLeaderFrameStart p s
  | .frameStart p entry => Sys2Proof.Machine.execFrameStart p entry s
  | .lockedExit p => Sys2Proof.Machine.execLockedExit p s
  | .dormancyChange p entered => Sys2Proof.Machine.execDormancyChange p entered s
  | .lossTick => Sys2Proof.Machine.execLossTick s
  | .lossExpiry p => Sys2Proof.Machine.execLossExpiry p s
  | .slotComplete p n din => Sys2Proof.Machine.execSlotComplete p n din s
  | .slotDue p n => Sys2Proof.Machine.execSlotDue p n s
  | .arrival patch p n x => Sys2Proof.Machine.execArrival patch p n x s
  | .take patch p first => Sys2Proof.Machine.execTake patch p first s
  | .secondSlotRequest patch p first => Sys2Proof.Machine.execSecondSlotRequest patch p first s

end Sys2Proof.Machine
end

