-- ==== Sys2Proof/Machine/Step.lean ====
section
/-! DEFINITION. One step: the command at the front of the queue; with none, the part goes on by itself. -/

namespace Sys2Proof.Machine

/-- The command that takes an event in flight. -/
def Event.instr : Event → Instr
  | .frameStart p entry => .frameStart p entry
  | .lockedExit p => .lockedExit p
  | .dormancyChange p entered => .dormancyChange p entered
  | .arrival patch p n x => .arrival patch p n x
  | .take patch p first => .take patch p first
  | .secondSlotRequest patch p first => .secondSlotRequest patch p first

/-- With no command waiting: the oldest event in flight is taken; with none in flight the arbiter takes a command (R163);
with none to take the part idles (log entry 1). -/
def idleStep (s : State) : Host.Outcome State Fault Refusal :=
  match s.raised with
  | e :: _ => exec e.instr s
  | [] =>
    match s.arbiterCommand with
    | some i => exec i s
    | none => .next s

/-- One step. -/
def step (s : State) : Host.Outcome State Fault Refusal :=
  match s.pending with
  | i :: rest => exec i { s with pending := rest }
  | [] => idleStep s

/-- The command a word spells is put at the front of the queue; no word spells one. -/
def State.withFetchWord (s : State) (nbits w : Nat) : State :=
  match decodeTableWord nbits w with
  | some i => { s with pending := i :: s.pending }
  | none => s

end Sys2Proof.Machine
end

