-- ==== Sys2Proof/Safety.lean ====
section
/-! DEFINITION. What a sound state of the part is: the laws of the manual as predicates of the state, and the two shapes in
which statements about commands are written (a command ready to be taken, a command answered). -/

namespace Sys2Proof.Machine

/-! ## A command taken and answered -/

/-- A command of the link may be taken: its response queue has a free place, and the aux link is enabled (R163). -/
structure State.Accepts (s : State) (l : Link) : Prop where
  room : (s.link l).responses.length < 4
  enabled : l = .aux → s.rights.enabled = true

/-- The part after one command has been taken and answered and nothing else has changed: the frame has left the head of its
link's command queue if it stood there, the answer stands at the tail of the link's response queue, and the link is the one
served last (R152, R163, R169). -/
def State.answered (s : State) (code : Byte) (t : Taken) (st : Status) (payload : List Byte) : State :=
  let k := s.link t.link
  let frame : Frame := ⟨code, t.seq, t.len, t.params⟩
  let k' : LinkRec :=
    { k with
      commands := if k.commands.head? = some frame then k.commands.tail else k.commands
      responses := k.responses ++ [⟨st, t.seq, code, payload⟩] }
  match t.link with
  | .main => { s with mainLink := k', lastServed := .main }
  | .aux => { s with auxLink := k', lastServed := .aux }

/-- The parameter length each code requires; INSTALL's depends on its destination count (R170, section 8.7). -/
def requiredLength (i : Instr) : Option Nat :=
  match i with
  | .install t => some (16 + 4 * t.destCount)
  | .readAlerts _ => some 0
  | .mute _ | .unmute _ | .cancel _ | .readTicket _ | .lock _ | .unlock _ | .readPatch _ | .readTable _ | .clearTable _
  | .portStart _ | .portStop _ | .setAlertMask _ => some 1
  | .retire _ | .readSlotmap _ | .readCounts _ | .readPort _ => some 2
  | .dropDest _ | .setAux _ => some 3
  | .rebind _ => some 4
  | .addDest _ => some 6
  | .tune _ => some 9
  | .portSet _ => some 13
  | .ackAlerts _ => some 16
  | _ => none

/-- A staged edit of link `t.link` may change patch `n` and gets ticket `k`: the patch is LIVE and not busy, it is the aux
link's own and not locked where the aux link asks, and a ticket is left for the link (R13, R54, R64, R144). -/
structure State.Editable (s : State) (t : Taken) (n : PatchNo) (k : TicketNo) : Prop where
  accepts : s.Accepts t.link
  live : (s.patch n).state = .live
  idle : s.busy n = false
  own : t.link = .aux → (s.patch n).owner = s.rights.tag ∧ (s.patch n).locked = false
  ticket : s.freeTicket? = some k
  places : t.link = .aux → s.auxTicketCount < 8

/-- The ticket of an edit at the end of its acceptance: WAITING on the endpoints left, or DONE with outcome COMPLETED and an
empty donor list where none is left (R52, R55, R59). -/
def stagedTicket (l : Link) (op : Op) (mode : Option RetireMode) (n : PatchNo) (donors : List PatchNo) (total : Nat)
    (awaiting : List Endpoint) : Ticket :=
  if awaiting = [] then ⟨.done, l, some op, mode, some n, [], total, [], some .completed, false⟩
  else ⟨.waiting, l, some op, mode, some n, donors, total, awaiting, none, false⟩

/-- TICKET_DONE of ticket `k` has been posted to the link's own set where `done` (R59, R60). -/
def State.doneAt (s : State) (l : Link) (k : TicketNo) (done : Bool) : State :=
  if done then s.setAlerts l { s.alerts l with ticketDone := addMember (s.alerts l).ticketDone k.val } else s

/-- An enumeration is sent as its position, from 0, in the list where its field is specified (R168). -/
def place {α : Type} [DecidableEq α] (xs : List α) (a : α) : Byte := BitVec.ofNat 8 (xs.idxOf a)

/-- The four bytes of an ACCEPTED answer (R55, section 8.7). -/
def acceptedBytes (k : TicketNo) (state : TicketState) (n : PatchNo) (victim : Option PatchNo) : List Byte :=
  [ticketByte k, ticketStateByte state, patchByte n, optByte patchByte victim]

/-- Patch `n` has been freed: FREE values, no claim in either map, no latch, out of the install-order list, and the change
count is up by 1 if it stood there (R12, R15). -/
structure State.Freed (s s' : State) (n : PatchNo) : Prop where
  record : s'.patch n = Patch.free
  inMap : ∀ p q, s'.inEntry p q = (s.inEntry p q).filter fun c => c.patch ≠ n
  outMap : ∀ p q, s'.outEntry p q =
    ⟨(s.outEntry p q).holder.filter fun h => h.patch ≠ n, (s.outEntry p q).resv.filter fun v => v.patch ≠ n⟩
  latches : ∀ p, s'.port p = { s.port p with latch := (s.port p).latch.filter fun l => l.patch ≠ n }
  order : s'.order = s.order.erase n
  changes : s'.changes = if n ∈ s.order then s.changes + 1 else s.changes

/-- An INSTALL of descriptor `d` passes every check without takeover or eviction and gets record `n` and ticket `k`: fields
in range, slots unclaimed, ports granted, a record and a ticket left (R66, R139, R145). -/
structure State.Installs (s : State) (t : Taken) (d : Descriptor) (k : TicketNo) : Prop where
  accepts : s.Accepts t.link
  length : t.len.toNat = 16 + 4 * t.destCount
  fields : descriptorFieldsOk t = true
  relations : d.relationsOk = true
  descriptor : d = descriptorOf t
  granted : t.link = .aux → s.rights.grants d.source.port = true ∧ ∀ x ∈ d.dests, s.rights.grants x.port = true
  inputs : ∀ x ∈ d.source.roles, s.inEntry d.source.port x.1 = none
  outputs : ∀ x ∈ d.dests, ∀ q ∈ x.slots, s.outEntry x.port q = ⟨none, none⟩
  ticket : s.freeTicket? = some k
  places : t.link = .aux → s.auxTicketCount < 8

/-- One requested destination takes over nothing (`none`: its slots are unclaimed), or destination `f` of patch `m` on its port,
which the link may take from: the patch is LIVE, not locked, not busy and, for the aux link, aux-owned; its first slot is
named; no other destination holds a named slot, and none is reserved (R84). -/
def State.TakesOver (s : State) (l : Link) (x : DestSpec) : Option (PatchNo × Slot) → Prop
  | none => ∀ q ∈ x.slots, s.outEntry x.port q = ⟨none, none⟩
  | some (m, f) =>
    (s.patch m).state = .live ∧ (s.patch m).locked = false ∧ s.busy m = false
    ∧ (l = .aux → (s.patch m).owner = s.rights.tag) ∧ f ∈ x.slots ∧ (s.outEntry x.port f).holder = some ⟨m, f, false⟩
    ∧ ∀ q ∈ x.slots, (s.outEntry x.port q).resv = none
        ∧ ((s.outEntry x.port q).holder = none ∨ ∃ b, (s.outEntry x.port q).holder = some ⟨m, f, b⟩)

/-- An INSTALL passes every check but that for a record, `taken` saying what each of its destinations takes over, which only
TAKE allows (R66, R84, R139, R145). -/
structure State.InstallsTaking (s : State) (t : Taken) (d : Descriptor) (k : TicketNo)
    (taken : DestSpec → Option (PatchNo × Slot)) : Prop where
  accepts : s.Accepts t.link
  length : t.len.toNat = 16 + 4 * t.destCount
  fields : descriptorFieldsOk t = true
  relations : d.relationsOk = true
  descriptor : d = descriptorOf t
  take : ∀ x ∈ d.dests, taken x ≠ none → d.take = true
  granted : t.link = .aux → s.rights.grants d.source.port = true ∧ ∀ x ∈ d.dests, s.rights.grants x.port = true
  inputs : ∀ x ∈ d.source.roles, s.inEntry d.source.port x.1 = none
  outputs : ∀ x ∈ d.dests, s.TakesOver t.link x (taken x)
  ticket : s.freeTicket? = some k
  places : t.link = .aux → s.auxTicketCount < 8

/-- A transfer of destination `nm` of patch `m`. -/
def Endpoint.takes (m : PatchNo) (nm : DestName) : Endpoint → Bool
  | .transfer d donor f => donor = m && decide (nm = ⟨d.port, f⟩)
  | .sourceActivation _ | .sourceMove _ | .destActivation _ | .release _ | .muteApply _ | .intakeClose _ => false

/-- A record that has given up the destinations of its list that `gone` picks: their places in the owed sets and the entries so
emptied are gone with them (R19, R27, R37). -/
def Patch.without (r : Patch) (gone : DestName → Bool) : Patch :=
  { r with
    queue := (r.queue.map fun e => { e with owed := e.owed.filter fun x => !gone x }).filter fun e => e.owed ≠ []
    dests := r.dests.filter fun d => !gone d.name }

/-- The record of a new patch at the end of its INSTALL's acceptance, `held` saying which ports the Patch Controller holds as
LOCKED: what lies on a held port waits, the rest is applied (R5, R7, R8, R57). -/
def installedRecord (d : Descriptor) (owner : Fin 8) (held : Port → Bool) : Patch where
  state := if held d.source.port || d.dests.any fun x => held x.port then .pending else .live
  owner := owner
  kind := d.kind
  priority := d.priority
  locked := false
  muteTarget := false
  source := some d.source
  pendingSource := none
  intake := if held d.source.port then .waiting else .opened
  depth := d.depth
  startLevel := d.startLevel
  overflow := d.overflow
  underrun := d.underrun
  fill := d.fill
  queue := []
  overflows := 0
  threshold := 0
  dests := d.dests.map fun x =>
    ⟨x.port, x.form, x.first, x.second, if held x.port then .waiting else .dormant, none, false, 0, none, none⟩

/-- The endpoints of an INSTALL, `taken` saying what each of its destinations takes over (R53, R85). -/
def Descriptor.endpoints (d : Descriptor) (taken : DestSpec → Option (PatchNo × Slot)) : List Endpoint :=
  .sourceActivation d.source.port :: d.dests.map fun x =>
    match taken x with
    | none => .destActivation x.name
    | some (m, f) => .transfer x.name m f

/-- Patch `m` at the end of an acceptance with endpoints `es`: what they take from it on ports not held as LOCKED has been given
up, what they take on the others is marked TAKEN (R85, R86). -/
def Patch.donated (r : Patch) (m : PatchNo) (es : List Endpoint) (held : Port → Bool) : Patch :=
  let now := es.filter fun e => !held e.port
  let rest := if now.any fun e => e.takesFrom m then r.without fun nm => now.any fun e => e.takes m nm else r
  { rest with
    dests := rest.dests.map fun y => if es.any fun e => e.takes m y.name then { y with marker := some .taken } else y }

/-- An acceptance with endpoints `es` leaves donor `m` without a destination (R87). -/
def State.emptied (s : State) (es : List Endpoint) (m : PatchNo) : Bool :=
  es.any (fun e => e.takesFrom m) && decide (((s.patch m).donated m es s.pcHolds).dests = [])

/-- Ticket `k` of subject `n` waits on port `p` with the one endpoint `e`, and no other ticket waits on `p`. -/
structure State.OnlyWaits (s : State) (p : Port) (k : TicketNo) (n : PatchNo) (e : Endpoint) : Prop where
  port : e.port = p
  state : (s.ticket k).state = .waiting
  subject : (s.ticket k).subject = some n
  awaiting : (s.ticket k).awaiting = [e]
  own : (s.ticket k).orphan = false
  link : (s.ticket k).link = .aux → s.rights.enabled = true
  others : ∀ k', k' ≠ k → (s.ticket k').state = .waiting → ∀ x ∈ (s.ticket k').awaiting, x.port ≠ p

/-- Ticket `k` of subject `n` waits on port `p` with the one endpoint `e`, with those of `before` and `after` on other ports,
and no other ticket waits on `p`. -/
structure State.WaitsAmong (s : State) (p : Port) (k : TicketNo) (n : PatchNo) (e : Endpoint)
    (before after : List Endpoint) : Prop where
  port : e.port = p
  state : (s.ticket k).state = .waiting
  subject : (s.ticket k).subject = some n
  awaiting : (s.ticket k).awaiting = before ++ e :: after
  elsewhere : ∀ x ∈ before ++ after, x.port ≠ p
  own : (s.ticket k).orphan = false
  link : (s.ticket k).link = .aux → s.rights.enabled = true
  others : ∀ k', k' ≠ k → (s.ticket k').state = .waiting → ∀ x ∈ (s.ticket k').awaiting, x.port ≠ p

/-- A ticket that has completed (R59). -/
def Ticket.completed (k : Ticket) : Ticket :=
  { k with state := .done, awaiting := [], donors := [], ending := some .completed }

/-- Ticket `k` goes on waiting for `awaiting`, or with nothing left completes: the PENDING patch of an INSTALL becomes LIVE and
the number is posted to the issuing link; an orphan is freed instead, and posts nothing (R9, R57, R59, R60, R63). -/
def State.left (s : State) (k : TicketNo) (awaiting : List Endpoint) (donors : List PatchNo) : State :=
  let x := s.ticket k
  if awaiting = [] then
    ({ s with
        patches := match x.op, x.subject with
          | some .install, some n => putCell s.patches n { s.patch n with
              state := if (s.patch n).state = .pending then .live else (s.patch n).state }
          | _, _ => s.patches
        tickets := putCell s.tickets k (if x.orphan then Ticket.free else x.completed) } : State).doneAt x.link k (!x.orphan)
  else { s with tickets := putCell s.tickets k { x with awaiting := awaiting, donors := donors } }

/-- Ticket `k` has completed and its number has been posted to its link (R59, R60). -/
def State.Completed (s s' : State) (k : TicketNo) : Prop :=
  s'.ticket k = (s.ticket k).completed
  ∧ (s'.alerts (s.ticket k).link).ticketDone = addMember (s.alerts (s.ticket k).link).ticketDone k.val

/-- The link that hears of a patch: the aux link for the aux tag in force while it is enabled, else the main link (R186). -/
def State.told (s : State) (owner : Fin 8) : Link := if owner = s.rights.tag ∧ s.rights.enabled then .aux else .main

/-- EVICTED of patch `n` has been posted, by the owner tag it held (R87, R92, R186). -/
def State.evicts (s : State) (n : PatchNo) : State :=
  let l := s.told (s.patch n).owner
  s.setAlerts l { s.alerts l with evicted := addMember (s.alerts l).evicted n.val }

/-- The part after an INSTALL into record `n`, `victim` the patch evicted for it and `taken` what its destinations take over:
- the new record; each donor with what it has given up or is to give up; a donor left with no destination, and the victim, are
  freed, claims, latches and place in the list included, and posted as EVICTED (R12, R85 to R87, R92, R194);
- the new claims: reservations, beside the holders there, on ports held as LOCKED, else holders (R18, R85, R86);
- the list, in which the record stands last, and one change for each record that leaves or enters it (R7, R15);
- the ticket, which names the donors of the transfers that wait, in the order of their first takers (R52, R84, R86). -/
structure State.Installed (s s' : State) (t : Taken) (d : Descriptor) (k : TicketNo) (n : PatchNo) (victim : Option PatchNo)
    (taken : DestSpec → Option (PatchNo × Slot)) : Prop where
  record : s'.patch n = installedRecord d (if t.link = .aux then s.rights.tag else d.owner) s.pcHolds
  donors : ∀ m, m ≠ n → s'.patch m =
    if s.emptied (d.endpoints taken) m then Patch.free else (s.patch m).donated m (d.endpoints taken) s.pcHolds
  inputs : ∀ p q, s'.inEntry p q =
    match d.source.roles.find? fun x => p = d.source.port ∧ x.1 = q with
    | some x => some ⟨if s.pcHolds p then .reservation else .holder, n, x.2⟩
    | none => (s.inEntry p q).filter fun c => ¬(s.emptied (d.endpoints taken) c.patch ∨ victim = some c.patch)
  outputs : ∀ p q, s'.outEntry p q =
    match d.dests.find? fun x => x.port = p ∧ q ∈ x.slots with
    | some x =>
      if s.pcHolds p then ⟨(s.outEntry p q).holder, some ⟨n, x.first⟩⟩ else ⟨some ⟨n, x.first, decide (q ≠ x.first)⟩, none⟩
    | none =>
      ⟨(s.outEntry p q).holder.filter fun h => ¬(s.emptied (d.endpoints taken) h.patch ∨ victim = some h.patch
          ∨ s.pcHolds p = false ∧ (d.endpoints taken).any fun e => e.takes h.patch ⟨p, h.first⟩),
        (s.outEntry p q).resv.filter fun v => ¬(s.emptied (d.endpoints taken) v.patch ∨ victim = some v.patch)⟩
  latches : ∀ p, s'.port p = { s.port p with
    latch := (s.port p).latch.filter fun l => ¬(s.emptied (d.endpoints taken) l.patch ∨ victim = some l.patch) }
  rest :
    let es := d.endpoints taken
    let left := es.filter fun e => s.pcHolds e.port
    let gone := s.order.filter fun m => s.emptied es m || victim = some m
    let donors := ((d.dests.filterMap taken).map Prod.fst).eraseDups.filter fun m => left.any fun e => e.takesFrom m
    let k' := stagedTicket t.link .install none n donors es.length left
    s' = (({ gone.foldl State.evicts s with
        patches := s'.patches
        order := (s.order.filter fun m => !(s.emptied es m || victim = some m)) ++ [n]
        changes := s.changes + byte (gone.length + 1)
        inMap := s'.inMap
        outMap := s'.outMap
        ports := s'.ports
        tickets := putCell s.tickets k k' } : State).doneAt t.link k left.isEmpty).answered
      0x10 t .accepted (acceptedBytes k k'.state n victim)

/-- A count of patch `n` has gone from `old` to `new`: TROUBLE is posted where it has become equal to the threshold, unless
the threshold is 0 (R191). -/
def State.counted (s : State) (n : PatchNo) (old new : Nat) : State :=
  let r := s.patch n
  let l := s.told r.owner
  if new ≠ old ∧ r.threshold ≠ 0 ∧ new = r.threshold.toNat then
    s.setAlerts l { s.alerts l with trouble := addMember (s.alerts l).trouble n.val }
  else s

/-- A record after a frame start of port `p` at the Sample Exchange: a SHED intake whose source is on the port opens at half
depth or less, and the holds of the destinations on the port are gone (R29, R43). -/
def Patch.frameStarted (r : Patch) (p : Port) : Patch :=
  { r with
    intake := if r.intake = .shed ∧ r.source.map Source.port = some p ∧ r.queue.length ≤ r.depth / 2 then .opened
      else r.intake
    dests := r.dests.map fun d => if d.port = p then { d with hold := none } else d }

/-- A value sent on a port's lane in a span in progress that `inSpan` picks: it is cut to the sample width; outside LOCKED, or
in no such span, the lane is not touched (R126, R132, R133). -/
def PortRec.sending (r : PortRec) (inSpan : Slot → Prop) [DecidablePred inSpan] (v : Word) : PortRec :=
  if r.state = .locked ∧ ∃ q ∈ r.dueSlot, inSpan q then { r with dout := .carrying (keepTop r.config.sampleWidth v) } else r

/-- PORT_CHANGE of port `p` has been posted: to the main link, and to the aux link while it is enabled and the port is
granted (R119, R186). -/
def State.lockChanged (s : State) (p : Port) : State :=
  { s with
    mainAlerts := { s.mainAlerts with portChange := addMember s.mainAlerts.portChange (portIdx p).val }
    auxAlerts :=
      if s.rights.enabled && s.rights.grants p then
        { s.auxAlerts with portChange := addMember s.auxAlerts.portChange (portIdx p).val }
      else s.auxAlerts }

/-- FRAME_ERROR of port `p` has been posted, by the same routing (R112, R186). -/
def State.frameErred (s : State) (p : Port) : State :=
  { s with
    mainAlerts := { s.mainAlerts with frameError := addMember s.mainAlerts.frameError (portIdx p).val }
    auxAlerts :=
      if s.rights.enabled && s.rights.grants p then
        { s.auxAlerts with frameError := addMember s.auxAlerts.frameError (portIdx p).val }
      else s.auxAlerts }

/-- Nothing of port `p` is in flight but arrivals. -/
def State.Settled (s : State) (p : Port) : Prop := ∀ e ∈ s.raised, e.port = p → e.isArrival = true

/-- Nothing of port `p` is in flight. -/
def State.Clear (s : State) (p : Port) : Prop := ∀ e ∈ s.raised, e.port ≠ p

/-- The dues of port `p` have been answered: no take and no second-slot request of it is in flight. -/
def State.Answered (s : State) (p : Port) : Prop := ∀ e ∈ s.raised, e.port = p → e.isRequest = false

/-- Nothing that must be taken before event `e` is in flight: before it no event of its port, and of its port no dormancy
change unless it is one (R118, R124, R137). -/
def State.Foremost (s : State) (e : Event) : Prop :=
  (∀ x ∈ s.raised.takeWhile (fun x => x ≠ e), x.port ≠ e.port)
  ∧ (e.isDormancy = false → ∀ x ∈ s.raised, x.port = e.port → x.isDormancy = false)

/-- The event of a port at which what waits on it is applied: its LOCKED exit or its frame start (R56, R58). -/
def portEvent (exit : Bool) (p : Port) : Event := if exit then .lockedExit p else .frameStart p false

/-- A DRAIN release of ticket `k` that fails the test of a frame start: intake is not CLOSED, or the destination is PRIMED and an
entry is owed to it (R81). -/
def State.HeldBack (s : State) (k : TicketNo) : Endpoint → Prop
  | .release nm => (s.ticket k).mode = some .drain ∧ ∃ n, (s.ticket k).subject = some n
      ∧ ¬((s.patch n).intake = .closed
        ∧ ∀ d, (s.patch n).dest? nm = some d → d.phase = .primed → ∀ e ∈ (s.patch n).queue, nm ∉ e.owed)
  | .sourceActivation _ | .sourceMove _ | .destActivation _ | .transfer _ _ _ | .muteApply _ | .intakeClose _ => False

/-- Endpoint `e` of ticket `k`, with subject `n`, is the first to be applied at the event of port `p`: on the port nothing stands
before it but releases that are held back, in its own list before a release only, and it is not held back itself (R56, R58,
R81). Nothing is said of the endpoints after it, nor of those on other ports. -/
structure State.FirstOn (s : State) (exit : Bool) (p : Port) (k : TicketNo) (n : PatchNo) (e : Endpoint)
    (before after : List Endpoint) : Prop where
  foremost : s.Foremost (portEvent exit p)
  held : s.pcHolds p = true
  port : e.port = p
  state : (s.ticket k).state = .waiting
  subject : (s.ticket k).subject = some n
  awaiting : (s.ticket k).awaiting = before ++ e :: after
  ready : exit = false → ¬ s.HeldBack k e
  first : ∀ x ∈ before, x.port = p → exit = false ∧ s.HeldBack k x ∧ ∃ nm, e = .release nm
  lower : ∀ k', k' < k → (s.ticket k').state = .waiting → ∀ x ∈ (s.ticket k').awaiting, x.port = p →
    exit = false ∧ s.HeldBack k' x
  link : (s.ticket k).link = .aux → (s.ticket k).orphan = false → s.rights.enabled = true

/-- What must be taken before a row of port `p` is taken first: from the foremost event of the port on, with the dormancy change
that it hands on, the row does what it does once that event is taken (R117, R118, R124). -/
def State.TakenFirst (s : State) (p : Port) (row : State → Answer) : Prop :=
  ∀ e t, e ∈ s.raised → e.port = p → s.Foremost e → exec e.instr s = .next t →
    match e.handsOn with
    | none => row s = row t
    | some d => ∃ u, exec d.instr t = .next u ∧ row s = row u

/-- A frame start edge at bit clock `k` is on time: at the frame length or later under PULSE, at half of it or later from the
mid edge under SPLIT (R106, R107). -/
def PortRec.endsFrame (r : PortRec) (k : Nat) : Prop :=
  match r.config.framing, r.pos with
  | .split, .counting .second _ => r.config.slots / 2 * r.config.slotWidth ≤ k
  | .split, .counting .first _ | .split, .notCounting | .pulse, _ => r.config.slots * r.config.slotWidth ≤ k

/-- The bit of its value that a span ends with, bit 32 - W at offset W - 1, as the lane carries it: a LOCKED port carries it in
the span in progress alone (R123, R132). -/
def PortRec.lastBit (r : PortRec) (n : Nat) : Bool :=
  match r.dout with
  | .low => false
  | .carrying v => (r.state ≠ .locked || r.dueSlot.map Fin.val = some n) && v.getLsbD (32 - r.config.slotWidth)

/-- What bit clock 0 of a new frame or half carries when `count` slots, the last of them slot `last`, have ended `k` bit clocks
after their edge: under data delay 1, and with the edge at exactly their end, the last bit of the last slot, else nothing
(R123). -/
def PortRec.tailBit (r : PortRec) (count last k : Nat) : Bool :=
  if r.config.dataDelay = 1 ∧ k = count * r.config.slotWidth then r.lastBit last else false

/-- The tail bit that an on-time frame start edge brings, `k` bit clocks after the last edge: that of the last slot, where the
half that ends with it is in progress (R107, R123). -/
def PortRec.frameTail (r : PortRec) (k : Nat) : Bool :=
  match r.config.framing, r.pos.half with
  | .pulse, .first => r.tailBit r.config.slots (r.config.slots - 1) k
  | .split, .second => r.tailBit (r.config.slots / 2) (r.config.slots - 1) k
  | .pulse, .second | .split, .first => false

/-- The tail bit that an on-time mid edge brings (R107, R123). -/
def PortRec.midTail (r : PortRec) (k : Nat) : Bool := r.tailBit (r.config.slots / 2) (r.config.slots / 2 - 1) k

/-- A slot event at bit clock `c` of the half of slot `n` is raised: the port is LOCKED, the slot has a span, and its half is in
progress with that bit clock still to come, or is the second half of a leader's frame, which follows the first by itself. `now`
where it may be the bit clock of the frame position itself (R103, R124, R132). -/
def PortRec.Comes (r : PortRec) (n : Slot) (c : Nat) (now : Prop) : Prop :=
  r.state = .locked ∧ n.val < r.config.slots
  ∧ ((∃ k, r.pos = .counting (r.config.halfOf n) k ∧ (k < c ∨ now ∧ k = c))
    ∨ r.config.role = .leader ∧ r.config.halfOf n = .second ∧ ∃ k, r.pos = .counting .first k)

/-- The port at bit clock `c` of the half of slot `n`; a leader that has come into the second half has ended the first at
exactly half the frame length (R103, R123). -/
def PortRec.cameTo (r : PortRec) (n : Slot) (c : Nat) : PortRec :=
  if r.pos.half = r.config.halfOf n then { r with pos := .counting (r.config.halfOf n) c }
  else
    { r with
      pos := .counting (r.config.halfOf n) c
      tail := r.midTail (r.config.slots / 2 * r.config.slotWidth), dueSlot := none }

/-- A port at bit clock 0 of a new frame whose edge is the sample `now`: not bad, no latch, the loss timer from 0, no span in
progress, the tail bit `tail` (R106, R109, R114, R117, R123). -/
def PortRec.fresh (r : PortRec) (now tail : Bool) : PortRec :=
  { r with
    pos := .counting .first 0, bad := false, lossTimer := some 0, latch := none, dueSlot := none, sync := some now
    tail := tail }

/-- What a change of SYNC from one sample to the next marks: under PULSE a rise the frame start edge and a fall nothing, under
SPLIT a fall the frame start edge and a rise the mid edge (table of R105). -/
def Framing.marks (f : Framing) (before now : Bool) : Option SyncEdge :=
  if before = now then none
  else match f, now with
    | .pulse, true => some .frameStart
    | .pulse, false => none
    | .split, true => some .mid
    | .split, false => some .frameStart

/-- The last of some samples of SYNC makes an edge of this kind and none before it makes one; the sample that ended the
samples before, if there is one since PORT-START, counts as the first (R105). -/
def PortRec.Sees (r : PortRec) (kind : SyncEdge) (samples : List Bool) : Prop :=
  let levels := r.sync.toList ++ samples
  samples ≠ []
  ∧ (∃ a x y, levels = a ++ [x, y] ∧ r.config.framing.marks x y = some kind)
  ∧ ∀ a x y b, levels = a ++ x :: y :: b → b ≠ [] → r.config.framing.marks x y = none

/-- The last sample of SYNC. -/
def lastSample (samples : List Bool) : Bool := samples.getLast?.getD false

/-- The frame error count after one more frame error (R112). -/
def PortRec.oneError (r : PortRec) : Nat := if r.frameErrors < 65535 then r.frameErrors + 1 else r.frameErrors

/-! ## What a staged edit asks (R84, R91, R172 to R179) -/

/-- What a staged edit asks of its fields, of the patch and destination it names, of the rights of its link, of the state of the
patch, of the patches it concerns being idle, of the slots it names, of the tickets and of the Patch Table: checks 3 to 10 of
chapter 9, in their order. -/
structure EditAsks where
  fields : Prop
  found : Prop
  rights : Prop
  state : Prop
  idle : Prop
  slots : Prop
  ticket : Prop
  record : Prop

/-- The output slots a requested destination names may be claimed: without TAKE they carry no claim; with TAKE none is
reserved, and those that are held are held by one destination, its first slot among them, of one other patch that is LIVE, not
locked and, for the aux link, aux-owned (R84, R178). -/
def State.Open (s : State) (l : Link) (take : Bool) (subject : Option PatchNo) (d : DestSpec) : Prop :=
  if take then
    (∀ q ∈ d.slots, (s.outEntry d.port q).resv = none)
    ∧ ((∀ q ∈ d.slots, (s.outEntry d.port q).holder = none)
      ∨ ∃ m f, f ∈ d.slots ∧ subject ≠ some m ∧ (s.patch m).state = .live ∧ (s.patch m).locked = false
          ∧ (l = .aux → (s.patch m).owner = s.rights.tag)
          ∧ ∀ q ∈ d.slots, ∀ h, (s.outEntry d.port q).holder = some h → h.patch = m ∧ h.first = f)
  else ∀ q ∈ d.slots, s.outEntry d.port q = ⟨none, none⟩

/-- With TAKE, no held slot that a requested destination names has a busy holder (R177). -/
def State.HoldersIdle (s : State) (take : Bool) (d : DestSpec) : Prop :=
  take = true → ∀ q ∈ d.slots, ∀ h, (s.outEntry d.port q).holder = some h → s.busy h.patch = false

/-- What an edit of a patch in use asks beside what its own operation adds. -/
def State.asksOf (s : State) (t : Taken) (n : PatchNo) : EditAsks where
  fields := (t.param 0).toNat < 48
  found := (s.patch n).state ≠ .free
  rights := t.link = .aux → (s.patch n).owner = s.rights.tag ∧ (s.patch n).locked = false
  state := (s.patch n).state = .live
  idle := s.busy n = false
  slots := True
  ticket := (∃ k, (s.ticket k).state = .free) ∧ (t.link = .aux → s.auxTicketCount < 8)
  record := True

/-- What each staged edit asks. -/
def State.asks (s : State) : Instr → Option (Taken × EditAsks)
  | .install t =>
    let d := descriptorOf t
    some (t,
      { s.asksOf t 0 with
        fields := descriptorFieldsOk t = true ∧ d.relationsOk = true
        found := True
        rights := t.link = .aux → s.rights.grants d.source.port = true ∧ ∀ x ∈ d.dests, s.rights.grants x.port = true
        state := True
        idle := ∀ x ∈ d.dests, s.HoldersIdle d.take x
        slots := (∀ x ∈ d.source.roles, s.inEntry d.source.port x.1 = none)
          ∧ ∀ x ∈ d.dests, s.Open t.link d.take none x
        record := (∃ n : PatchNo, (s.patch n).state = .free)
          ∨ d.mayEvict = true ∧ ∃ m ∈ s.order, (s.patch m).state = .live ∧ (s.patch m).locked = false ∧ s.busy m = false
              ∧ (s.patch m).priority < d.priority ∧ (t.link = .aux → (s.patch m).owner = s.rights.tag)
              ∧ ∀ x ∈ d.dests, ∀ q ∈ x.slots, ∀ h, (s.outEntry x.port q).holder = some h → h.patch ≠ m })
  | .retire t =>
    let a := s.asksOf t (patchOf (t.param 0))
    some (t, { a with fields := a.fields ∧ (t.param 1).toNat < 2 })
  | .rebind t =>
    let n := patchOf (t.param 0)
    let a := s.asksOf t n
    let src := rebindSource t
    some (t,
      { a with
        fields := a.fields ∧ (t.param 1).toNat < 6 ∧ (t.param 2).toNat < 16 ∧ ((t.param 3).toNat < 16 ∨ t.param 3 = 0xFF)
          ∧ ((s.patch n).state ≠ .free → sourceFits (s.patch n).kind src.left src.right = true)
        rights := a.rights ∧ (t.link = .aux → s.rights.grants src.port = true)
        slots := ∀ x ∈ src.roles, s.inEntry src.port x.1 = none })
  | .addDest t =>
    let n := patchOf (t.param 0)
    let a := s.asksOf t n
    let d := addDestSpec t
    some (t,
      { a with
        fields := a.fields ∧ (t.param 1).toNat < 2 ∧ destFieldsOk (t.paramBytes 2 4) = true ∧ d.orderOk = true
          ∧ ((s.patch n).state ≠ .free → d.form.matchesKind (s.patch n).kind = true)
        rights := a.rights ∧ (t.link = .aux → s.rights.grants d.port = true)
        state := a.state ∧ (s.patch n).dests.length < 4
        idle := a.idle ∧ s.HoldersIdle (t.param 1 == 1) d
        slots := s.Open t.link (t.param 1 == 1) (some n) d })
  | .dropDest t =>
    let n := patchOf (t.param 0)
    let a := s.asksOf t n
    some (t,
      { a with
        fields := a.fields ∧ (t.param 1).toNat < 6 ∧ (t.param 2).toNat < 16
        found := a.found ∧ ∃ d ∈ (s.patch n).dests, d.name = dropDestName t
        state := a.state ∧ 1 < (s.patch n).dests.length })
  | .mute t | .unmute t => some (t, s.asksOf t (patchOf (t.param 0)))
  | _ => none

/-! ## What the hosts do on the pins of the links -/

/-- A transaction of the main link in which these bits are clocked in (R156). -/
def clocks (bits : List Bool) : List SpiEvent := bits.map .clock

/-- One bit of the aux bus, put on I2C_SDA while I2C_SCL is low (R160). -/
def bitWires (sda : Bool) : List Wire := [⟨false, sda⟩, ⟨true, sda⟩, ⟨false, sda⟩]

/-- One byte of the aux bus and its acknowledge bit, as the bus gives them: high where the part is to give the level (R160). -/
def byteWires (b : Byte) (ninth : Bool) : List Wire := (byteBits b ++ [ninth]).flatMap bitWires

/-- A start or a repeated start condition (R160). -/
def startWires : List Wire := [⟨false, true⟩, ⟨true, true⟩, ⟨true, false⟩, ⟨false, false⟩]

/-- A stop condition (R160). -/
def stopWires : List Wire := [⟨false, false⟩, ⟨true, false⟩, ⟨true, true⟩]

/-- The bus between two bytes: I2C_SCL low, no bit of a byte received yet, the part ready to send the first bit of the next
byte where it is sending. -/
def busAt (sda : Bool) (phase : BusPhase) : Bus := ⟨⟨false, sda⟩, none, phase.pulls [], phase, [], .no⟩

/-- The first `n` levels of some bytes, most significant bit first, with 1 after the last (R156, R158). -/
def levels (bytes : List Byte) (n : Nat) : List Bool := (bytes.flatMap byteBits ++ List.replicate n true).take n

/-! ## The laws of the links (R153, R154, R166, R186) -/

/-- Every queue is within its four places, a frame being received counted; a disabled aux link holds nothing. -/
structure LinksFit (s : State) : Prop where
  mainCommands : s.mainLink.commands.length ≤ 4
  mainResponses : s.mainLink.responses.length ≤ 4
  auxCommands : s.heldPlaces .aux ≤ 4
  auxResponses : s.auxLink.responses.length ≤ 4
  disabledQueues : s.rights.enabled = false → s.auxLink.commands = [] ∧ s.auxLink.responses = []
  disabledBus : s.rights.enabled = false → (s.i2c.phase = .ignoring ∨ ∃ b, s.i2c.phase = .address b)
  disabledRefused : s.rights.enabled = false → s.auxLink.lastRefused = none
  disabledAlerts : s.rights.enabled = false → s.auxAlerts = { Alerts.powerOn with masked := s.auxAlerts.masked }

/-! ## The laws of the hold queues (R3, R6, R25, R26, R44, R45) -/

/-- One record: the queue within the depth, every entry owed to a reading destination of the patch and to no other, no
destination listed twice in an owed set, what is owed to a destination the newest entries of the queue, the counts within 16
bits, at most four destinations. -/
structure Patch.QueueFits (r : Patch) : Prop where
  depth : 1 ≤ r.depth ∧ r.depth ≤ 4
  level : 1 ≤ r.startLevel ∧ r.startLevel ≤ r.depth
  length : r.queue.length ≤ r.depth
  owed : ∀ e ∈ r.queue, e.owed ≠ []
  readers : ∀ e ∈ r.queue, ∀ nm ∈ e.owed, ∃ d ∈ r.dests, d.name = nm ∧ d.reading = true
  once : ∀ e ∈ r.queue, e.owed.Nodup
  newest : r.queue.Pairwise fun older newer => ∀ nm ∈ older.owed, nm ∈ newer.owed
  overflows : r.overflows ≤ 65535
  underruns : ∀ d ∈ r.dests, d.underruns ≤ 65535
  dests : r.dests.length ≤ 4

def QueuesFit (s : State) : Prop := ∀ n : PatchNo, (s.patch n).QueueFits

/-! ## The law of phases (R34 to R36) -/

/-- A destination that has been applied is DORMANT exactly when its port is not LOCKED, as the Patch Controller holds it. While
dormancy changes of the port are in flight to the Sample Exchange the law waits for the last of them, which tells of the state
in which the Patch Controller holds the port; with none in flight the two hold it alike (R34, R41). -/
structure PhasesFit (s : State) : Prop where
  dormant : ∀ n : PatchNo, ∀ d ∈ (s.patch n).dests, d.phase ≠ .waiting → s.dormancies d.port = [] →
    (d.phase = .dormant ↔ s.pcHolds d.port = false)
  alike : ∀ p, s.dormancies p = [] → s.sxHolds p = s.pcHolds p
  last : ∀ p es e, s.dormancies p = es ++ [e] → e = .dormancyChange p (s.pcHolds p)

/-! ## The laws of the Patch Table and the maps (R7, R12, R15 to R17, R19) -/

/-- The install-order list holds each patch in use once, a FREE record holds the FREE values, and every claim names a patch
in use; an input holder is a slot of its patch's source, with the role it has there (R17), and an output holder names a
destination that has been applied; a source has a right slot above its left one under PAIR and none under SINGLE (R2); no patch
has more than four destinations, each of a form its kind allows, with a second slot above its first for TWIN and BOTH and none
for the other forms (R6). -/
structure TableFits (s : State) : Prop where
  once : s.order.Nodup
  listed : ∀ n : PatchNo, n ∈ s.order ↔ (s.patch n).state ≠ .free
  free : ∀ n : PatchNo, (s.patch n).state = .free → s.patch n = Patch.free
  inClaims : ∀ p q c, s.inEntry p q = some c → (s.patch c.patch).state ≠ .free
  inHolders : ∀ p q c, s.inEntry p q = some c → c.kind = .holder →
    ∃ src, (s.patch c.patch).source = some src ∧ src.port = p ∧ (q, c.role) ∈ src.roles
  sources : ∀ n : PatchNo, ∀ src, ((s.patch n).source = some src ∨ (s.patch n).pendingSource = some src) →
    match (s.patch n).kind, src.right with
    | .single, none => True
    | .pair, some q => src.left < q
    | _, _ => False
  holders : ∀ p q h, (s.outEntry p q).holder = some h →
    ∃ d ∈ (s.patch h.patch).dests, d.name = ⟨p, h.first⟩ ∧ d.phase ≠ .waiting
  reservations : ∀ p q v, (s.outEntry p q).resv = some v → (s.patch v.patch).state ≠ .free
  count : ∀ n : PatchNo, (s.patch n).dests.length ≤ 4
  forms : ∀ n : PatchNo, ∀ d ∈ (s.patch n).dests,
    match (s.patch n).kind, d.form, d.second with
    | .single, .one, none | .pair, .left, none | .pair, .right, none => True
    | .single, .twin, some q | .pair, .both, some q => d.first < q
    | _, _, _ => False

/-! ## The laws of the Ticket Table (R52, R54, R58, R59, R63) -/

/-- One record of the Ticket Table. -/
structure Ticket.Fits (k : Ticket) : Prop where
  free : k.state = .free → k = Ticket.free
  waiting : k.state = .waiting → k.subject.isSome ∧ k.op.isSome ∧ k.awaiting ≠ [] ∧ k.ending = none
  done : k.state = .done → k.ending.isSome ∧ k.donors = [] ∧ k.orphan = false
  total : k.awaiting.length ≤ k.total
  mode : k.mode.isSome → k.op = some .retire
  orphan : k.orphan = true → k.link = .aux ∧ k.state = .waiting

/-- Every record as above, at most 8 tickets belong to the aux link, and no WAITING ticket waits on a port that the Patch
Controller does not hold as LOCKED. -/
structure TicketsFit (s : State) : Prop where
  each : ∀ t : TicketNo, (s.ticket t).Fits
  aux : s.auxTicketCount ≤ 8
  locked : ∀ t : TicketNo, (s.ticket t).state = .waiting → ∀ e ∈ (s.ticket t).awaiting, s.pcHolds e.port = true

/-! ## What WAITING tickets and patches have to do with each other (R6, R9, R12, R16, R53, R65, R71, R78, R85) -/

/-- Ticket `k` is WAITING with operation `op` on subject `n`. -/
def State.WaitsFor (s : State) (k : TicketNo) (op : Op) (n : PatchNo) : Prop :=
  (s.ticket k).state = .waiting ∧ (s.ticket k).op = some op ∧ (s.ticket k).subject = some n

/-- A patch is named by at most one WAITING ticket (R65), which names it as subject or as donor but not as both, and names
as donors exactly the patches its transfers take from (R84, R86). -/
structure NamesFit (s : State) : Prop where
  once : ∀ n k k', (s.ticket k).names n = true → (s.ticket k').names n = true → k = k'
  subject : ∀ k n, (s.ticket k).state = .waiting → (s.ticket k).subject = some n → n ∉ (s.ticket k).donors
  donors : ∀ k m, (s.ticket k).state = .waiting →
    (m ∈ (s.ticket k).donors ↔ ∃ e ∈ (s.ticket k).awaiting, e.takesFrom m = true)

/-- The endpoint brings the destination of this name into service (R53). -/
def Endpoint.brings (nm : DestName) : Endpoint → Prop
  | .destActivation d | .transfer d _ _ => d = nm
  | .sourceActivation _ | .sourceMove _ | .release _ | .muteApply _ | .intakeClose _ => False

/-- The operations whose tickets have endpoints of this kind (R53). -/
def Endpoint.ops : Endpoint → List Op
  | .sourceActivation _ => [.install]
  | .sourceMove _ => [.rebind]
  | .destActivation _ | .transfer _ _ _ => [.install, .addDest]
  | .release _ => [.retire, .dropDest]
  | .muteApply _ => [.mute, .unmute]
  | .intakeClose _ => [.retire]

/-- What waits and what the Patch Table and the output map hold of it:
- no WAITING ticket names a FREE patch (R12); a patch in use has a destination, of no two the same name (R4, R6); it is
  PENDING exactly under its WAITING INSTALL, unlocked, and RETIRING exactly under its WAITING RETIRE (R8, R11, R180);
- an awaiting list holds endpoints of its operation, none twice; a RETIRE awaits a release for each destination left, a
  DROP-DEST one release of a patch with another destination, an ADD-DEST leaves a destination in service (R70, R71, R78);
- each WAITING destination is brought into service by an endpoint that waits, and each such endpoint has its destination
  WAITING, its entries reserved, their holders none or, for a transfer, those of the donor's destination, whose first slot is
  among them (R84, R85);
- each reservation of the output map is that of an endpoint that waits; so an entry carries a holder and a reservation
  together only while a WAITING ticket takes its slot over (R16);
- a destination in service holds its entries (R16, R57);
- a reservation of the input map is that of a slot, with its role, of the source of a WAITING INSTALL or of the pending source of
  a WAITING REBIND, whose endpoint waits on the port (R2, R18, R68); a pending source is that of such a REBIND;
- a destination marked DROP awaits its release under a DROP-DEST, one marked RETIRE belongs to a RETIRE, one marked TAKEN is that
  of a transfer that waits (R5, R71, R78, R85); so a patch that is not busy has no pending source and no marker (R65). -/
structure EditsFit (s : State) : Prop where
  inUse : ∀ k n, (s.ticket k).names n = true → (s.patch n).state ≠ .free
  reaches : ∀ n : PatchNo, (s.patch n).state ≠ .free → (s.patch n).dests ≠ []
  names : ∀ n : PatchNo, ((s.patch n).dests.map Destination.name).Nodup
  pending : ∀ n, (s.patch n).state = .pending ↔ ∃ k, s.WaitsFor k .install n
  unlocked : ∀ n : PatchNo, (s.patch n).state = .pending → (s.patch n).locked = false
  retiring : ∀ n, (s.patch n).state = .retiring ↔ ∃ k, s.WaitsFor k .retire n
  ops : ∀ k, (s.ticket k).state = .waiting → ∀ e ∈ (s.ticket k).awaiting, ∃ op ∈ e.ops, (s.ticket k).op = some op
  each : ∀ k, (s.ticket k).awaiting.Nodup
  retire : ∀ k n, s.WaitsFor k .retire n → ∀ d ∈ (s.patch n).dests, Endpoint.release d.name ∈ (s.ticket k).awaiting
  drop : ∀ k n, s.WaitsFor k .dropDest n → 2 ≤ (s.patch n).dests.length ∧ ∃ nm, (s.ticket k).awaiting = [.release nm]
  add : ∀ k n, s.WaitsFor k .addDest n → ∃ d ∈ (s.patch n).dests, d.phase ≠ .waiting
  covered : ∀ n : PatchNo, ∀ d ∈ (s.patch n).dests, d.phase = .waiting →
    ∃ k, (s.ticket k).state = .waiting ∧ (s.ticket k).subject = some n
      ∧ ∃ e ∈ (s.ticket k).awaiting, e.brings d.name
  backed : ∀ k n, (s.ticket k).state = .waiting → (s.ticket k).subject = some n → ∀ e ∈ (s.ticket k).awaiting,
    ∀ nm, e.brings nm → ∃ d ∈ (s.patch n).dests, d.name = nm ∧ d.phase = .waiting
      ∧ ∀ q ∈ d.slots, (s.outEntry nm.port q).resv = some ⟨n, nm.first⟩
        ∧ ∀ h, (s.outEntry nm.port q).holder = some h → e = .transfer nm h.patch h.first
  donor : ∀ k n nm m f, (s.ticket k).state = .waiting → (s.ticket k).subject = some n →
    Endpoint.transfer nm m f ∈ (s.ticket k).awaiting →
    (s.outEntry nm.port f).resv = some ⟨n, nm.first⟩
    ∧ ∃ d ∈ (s.patch m).dests, d.name = ⟨nm.port, f⟩ ∧ d.phase ≠ .waiting ∧ d.marker = some .taken
  reserved : ∀ p q v, (s.outEntry p q).resv = some v →
    ∃ k, (s.ticket k).state = .waiting ∧ (s.ticket k).subject = some v.patch
      ∧ (∃ e ∈ (s.ticket k).awaiting, e.brings ⟨p, v.first⟩
          ∧ ∀ h, (s.outEntry p q).holder = some h → e = .transfer ⟨p, v.first⟩ h.patch h.first)
      ∧ ∃ d ∈ (s.patch v.patch).dests, d.name = ⟨p, v.first⟩ ∧ q ∈ d.slots
  held : ∀ n : PatchNo, ∀ d ∈ (s.patch n).dests, d.phase ≠ .waiting → ∀ q ∈ d.slots,
    (s.outEntry d.port q).holder = some ⟨n, d.first, decide (q ≠ d.first)⟩
  inReserved : ∀ p q c, s.inEntry p q = some c → c.kind = .reservation →
    ∃ src, src.port = p ∧ (q, c.role) ∈ src.roles ∧ ∃ k,
      (s.patch c.patch).source = some src ∧ s.WaitsFor k .install c.patch ∧ Endpoint.sourceActivation p ∈ (s.ticket k).awaiting
      ∨ (s.patch c.patch).pendingSource = some src ∧ s.WaitsFor k .rebind c.patch
        ∧ Endpoint.sourceMove p ∈ (s.ticket k).awaiting
  moves : ∀ n src, (s.patch n).pendingSource = some src →
    ∃ k, s.WaitsFor k .rebind n ∧ Endpoint.sourceMove src.port ∈ (s.ticket k).awaiting
  marked : ∀ n : PatchNo, ∀ d ∈ (s.patch n).dests,
    match d.marker with
    | none => True
    | some .drop => ∃ k, s.WaitsFor k .dropDest n ∧ Endpoint.release d.name ∈ (s.ticket k).awaiting
    | some .retire => ∃ k, s.WaitsFor k .retire n
    | some .taken => ∃ k, (s.ticket k).state = .waiting ∧ ∃ e ∈ (s.ticket k).awaiting, e.takes n d.name = true
  idle : ∀ n, s.busy n = false → (s.patch n).pendingSource = none ∧ ∀ d ∈ (s.patch n).dests, d.marker = none

/-! ## The laws of the ports (R98 to R104, R112, R114, R122) -/

/-- A configuration record within the ranges of R98. -/
structure PortConfig.Fits (c : PortConfig) : Prop where
  slots : 1 ≤ c.slots ∧ c.slots ≤ 16
  split : c.framing = .split → 2 ≤ c.slots ∧ c.slots % 2 = 0
  slotWidth : c.slotWidth = 16 ∨ c.slotWidth = 24 ∨ c.slotWidth = 32
  sampleWidth : 8 ≤ c.sampleWidth ∧ c.sampleWidth ≤ c.slotWidth
  dataDelay : c.dataDelay ≤ 1
  lossTimeout : 1 ≤ c.lossTimeout ∧ c.lossTimeout ≤ 255
  divider : c.divider ≤ 127

/-- One Port Engine: its configuration in range, its counts bounded, the loss timer running exactly in a follower's LOCKING
and LOCKED and below the timeout, a leader only OFF or LOCKED, and clocked exactly while LOCKED; no latch outside LOCKED, and
under SPLIT the last sample of SYNC low in the first half of a follower's frame and high in the second, so that its edges
alternate (R105, R133). -/
structure PortRec.Fits (r : PortRec) : Prop where
  config : r.config.Fits
  good : r.good ≤ 2
  consecutive : r.consecutive ≤ 3
  frameErrors : r.frameErrors ≤ 65535
  timer : r.lossTimer.isSome ↔ r.config.role = .follower ∧ (r.state = .locking ∨ r.state = .locked)
  timeout : ∀ c, r.lossTimer = some c → c < r.config.lossTimeout
  leader : r.config.role = .leader → r.state = .off ∨ r.state = .locked
  clock : r.clock.isSome ↔ r.config.role = .leader ∧ r.state = .locked
  latch : r.state ≠ .locked → r.latch = none
  sync : r.config.role = .follower → r.config.framing = .split → (r.state = .locking ∨ r.state = .locked) →
    ∃ h c, r.pos = .counting h c ∧ r.sync = some (decide (h = .second))

def PortsFit (s : State) : Prop := ∀ p : Port, (s.port p).Fits

/-! ## A sound state -/

/-- All the laws together. -/
structure Sound (s : State) : Prop where
  links : LinksFit s
  queues : QueuesFit s
  table : TableFits s
  tickets : TicketsFit s
  ports : PortsFit s
  phases : PhasesFit s
  names : NamesFit s
  edits : EditsFit s

end Sys2Proof.Machine
end

