-- ==== Sys2Proof/Certificates/Slice0/Obligations.lean ====
section
/-! DEFINITION. The statements for the provers: what the commands and events do, and the laws every step keeps. -/

open Sys2Proof Sys2Proof.Machine

/-! ## Steps and encodings -/

/-- A step takes the command at the front of the queue and runs it with the queue's rest. -/
def Obligations.StepTakesFront : Prop :=
  ∀ (c : Instr) (rest : List Instr) (s : State),
    step { s with pending := c :: rest } = exec c { s with pending := rest }

/-- With no command waiting the oldest event in flight is taken; with none in flight the arbiter's command is taken; with
neither the part idles. The model's choice (log entry 1). -/
def Obligations.StepWithoutCommand : Prop :=
  ∀ s : State, s.pending = [] →
    (∀ e es, s.raised = e :: es → step s = exec e.instr s)
    ∧ (∀ i, s.raised = [] → s.arbiterCommand = some i → step s = exec i s)
    ∧ (s.raised = [] → s.arbiterCommand = none → step s = .next s)

/-- The bytes of a command, whatever link they come over and whatever bytes follow the frame, are stored as the frame of that
command and decode to it; of more than 36 parameters the first 36 are kept (R151, R168). -/
def Obligations.DecodeOfBytesOfCommand : Prop :=
  ∀ (i : Instr) (l : Link) (f : Frame) (params extra : List Byte),
    i.wf = true → encodeFrame i = some (l, f) →
    params.length = f.len.toNat → params.take 36 = f.params →
    frameOfBytes (f.code :: f.seq :: f.len :: (params ++ extra)) = some f ∧ decodeFrame l f = i

/-- Fields come back from their bytes, and bytes from their bits: 32-bit values, numbers of sets, ports, slots, patches, tickets,
selectors and enumerations. An enumeration is sent as its position, from 0, in the list where its field is specified; statuses
and the selectors have the values of section 8.7 (R156, R168). -/
def Obligations.FieldsRoundTrip : Prop :=
  (∀ w : Word, wordOf (wordBytes w) = w)
  ∧ (∀ k n : Nat, fromBigEndian (bigEndian k n) = n % 256 ^ k)
  ∧ (∀ b : Byte, byteOfBits (byteBits b) = b) ∧ (∀ x, selectorOf (selectorByte x) = some x)
  ∧ (∀ p, portOf (portByte p) = p) ∧ (∀ q, slotOf (slotByte q) = q) ∧ (∀ n, patchOf (patchByte n) = n)
  ∧ (∀ k, ticketOf (ticketByte k) = k) ∧ (∀ x, formOf (formByte x) = x) ∧ (∀ x, kindOf (kindByte x) = x)
  ∧ (∀ x, overflowOf (overflowByte x) = x) ∧ (∀ x, underrunOf (underrunByte x) = x)
  ∧ (∀ x, modeOf (modeByte x) = x) ∧ (∀ x, roleOf (roleByte x) = x) ∧ (∀ x, framingOf (framingByte x) = x)
  ∧ (∀ p, portByte p = place [.A, .B, .C, .D, .E, .F] p) ∧ (∀ l, linkByte l = place [.main, .aux] l)
  ∧ (∀ x, patchStateByte x = place [.free, .pending, .live, .retiring] x)
  ∧ (∀ x, kindByte x = place [.single, .pair] x) ∧ (∀ x, overflowByte x = place [.keepOld, .keepNew] x)
  ∧ (∀ x, underrunByte x = place [.fill, .repeatLast] x)
  ∧ (∀ x, formByte x = place [.one, .twin, .both, .left, .right] x)
  ∧ (∀ x, phaseByte x = place [.waiting, .dormant, .unprimed, .primed] x)
  ∧ (∀ x, intakeByte x = place [.waiting, .opened, .shed, .closed] x)
  ∧ (∀ x, markerByte x = place [none, some .drop, some .retire, some .taken] x)
  ∧ (∀ x, inRoleByte x = place [.single, .left, .right] x)
  ∧ (∀ x, ticketStateByte x = place [.free, .waiting, .done] x)
  ∧ (∀ x, opByte x = place [.install, .retire, .rebind, .addDest, .dropDest, .mute, .unmute] x)
  ∧ (∀ x, modeByte x = place [.cut, .drain] x) ∧ (∀ x, endingByte x = place [.completed, .cancelled, .aborted] x)
  ∧ (∀ x, roleByte x = place [.leader, .follower] x) ∧ (∀ x, framingByte x = place [.pulse, .split] x)
  ∧ (∀ x, portStateByte x = place [.off, .armed, .locking, .locked, .lost] x)
  ∧ (∀ x, refusedByte x = place [none, some .full, some .truncated] x)
  ∧ (∀ b, boolByte b = place [false, true] b)
  ∧ [Status.ok, .accepted, .busy, .conflict, .denied, .tableFull, .noTicket, .badParam, .badState, .notFound, .tooLate,
      .badFrame].map statusByte = [0x01, 0x02, 0x10, 0x11, 0x12, 0x13, 0x14, 0x20, 0x21, 0x22, 0x23, 0x24]
  ∧ [Selector.send, .fetch, .status].map selectorByte = [0x01, 0x02, 0x03]
  ∧ ∀ b : Byte, b ≠ 0x01 → b ≠ 0x02 → b ≠ 0x03 → selectorOf b = none

/-! ## The laws: at reset, and kept by every step -/

/-- The state after reset meets every law. -/
def Obligations.SoundAtReset : Prop := Sound State.reset

/-- No step breaks the limits of the links: four places a queue, and a disabled aux link holds nothing (R153, R154, R166). -/
def Obligations.StepKeepsLinksFit : Prop :=
  ∀ s s' : State, LinksFit s → step s = .next s' → LinksFit s'

/-- No step breaks the laws of the hold queues: the owed sets, with what is owed to a destination the newest entries, and the
limits; nor the law of phases, by which a destination in service is DORMANT exactly when its port is not LOCKED (R25, R26, R34,
R41, R44). -/
def Obligations.StepKeepsQueuesFit : Prop :=
  (∀ s s' : State, QueuesFit s → step s = .next s' → QueuesFit s')
  ∧ ∀ s s' : State, PhasesFit s → step s = .next s' → PhasesFit s'

/-- No step breaks the laws of the Patch Table, the install-order list and the slot maps; nor, where the laws of the tables
hold together, what the patches, the maps and the WAITING tickets have to do with each other: no WAITING ticket names a FREE
patch, an output entry carries a holder and a reservation together only while a WAITING ticket takes its slot over, an input
entry is held by a source's slot or reserved for that of a WAITING INSTALL or REBIND, and a patch that is not busy has no pending
source and no marker (R2, R5, R6, R7, R12, R15, R16, R17, R18, R65). -/
def Obligations.StepKeepsTableFits : Prop :=
  (∀ s s' : State, TableFits s → step s = .next s' → TableFits s')
  ∧ ∀ s s' : State, TableFits s → TicketsFit s → NamesFit s → EditsFit s → step s = .next s' → EditsFit s'

/-- No step breaks the laws of the Ticket Table; no ticket is left waiting on a port that is not LOCKED; and, where the laws of
the tables hold together, a patch stays named by at most one WAITING ticket, and a ticket's donors are the patches that its
transfers take from (R54, R58, R59, R65, R84, R86). -/
def Obligations.StepKeepsTicketsFit : Prop :=
  (∀ s s' : State, TicketsFit s → step s = .next s' → TicketsFit s')
  ∧ ∀ s s' : State, TableFits s → TicketsFit s → NamesFit s → EditsFit s → step s = .next s' → NamesFit s'

/-- No step breaks the laws of the ports (R98, R100, R104, R112, R114). -/
def Obligations.StepKeepsPortsFit : Prop :=
  ∀ s s' : State, PortsFit s → step s = .next s' → PortsFit s'

/-- A locked patch that no ticket waits to change is freed by RETIRE or CLEAR-TABLE from the main link or by power-on, and by
nothing else (R14). -/
def Obligations.LockedPatchKeptInUse : Prop :=
  ∀ (i : Instr) (s s' : State) (n : PatchNo),
    (s.patch n).state = .live → (s.patch n).locked = true → s.busy n = false →
    (∀ k, (s.ticket k).state = .waiting → ∀ e ∈ (s.ticket k).awaiting, e.takesFrom n = false) →
    (∀ t, i = .retire t → t.link = .aux) → (∀ t, i = .clearTable t → t.link = .aux) → (∀ a, i ≠ .powerOnReset a) →
    exec i s = .next s' → (s'.patch n).state ≠ .free

/-- A command from the aux link changes no rights, no port but for its latch, no lock of a port or of a patch but that of the
record of an INSTALL that still waits, no pin, and no mask or queue of the main link (R142, R148, R180). -/
def Obligations.AuxCommandsConfined : Prop :=
  ∀ (i : Instr) (l : Link) (f : Frame) (s s' : State),
    encodeFrame i = some (l, f) → l = .aux → exec i s = .next s' →
    s'.rights = s.rights ∧ s'.mainLink = s.mainLink ∧ s'.mainAlerts.masked = s.mainAlerts.masked
    ∧ s'.pcLocked = s.pcLocked ∧ s'.sxLocked = s.sxLocked ∧ s'.raised = s.raised ∧ s'.spi = s.spi ∧ s'.i2c = s.i2c
    ∧ (∀ p, ∃ x, s'.port p = { s.port p with latch := x })
    ∧ ∀ n : PatchNo, (s.patch n).state ≠ .free → (∀ k, ¬ s.WaitsFor k .install n) →
        (s'.patch n).locked = (s.patch n).locked

/-! ## Taking a command -/

/-- Every command that may be taken is answered once on its own link, with its sequence and code echoed; an answer
other than OK and ACCEPTED has no payload and leaves everything else as it was (R152, R169). The model's conventions:
log entry 3. -/
def Obligations.AnsweredOnce : Prop :=
  ∀ (i : Instr) (l : Link) (f : Frame) (s : State),
    encodeFrame i = some (l, f) → s.Accepts l →
    ∃ s' st payload, exec i s = .next s'
      ∧ (s'.link l).responses = (s.link l).responses ++ [⟨st, f.seq, f.code, payload⟩]
      ∧ s'.lastServed = l
      ∧ (st ≠ .ok → st ≠ .accepted →
          payload = [] ∧ s' = s.answered f.code ⟨l, f.seq, f.len, f.params⟩ st [])

/-- The arbiter's choice: of two links that qualify the one not served last, else the one that qualifies, else none; the
command is the oldest frame of that link's queue (R163). -/
def Obligations.ArbiterAlternates : Prop :=
  ∀ s : State,
    let q (l : Link) : Prop := (s.link l).commands ≠ [] ∧ s.Accepts l
    (q .main → q .aux → s.arbiterLink = some (if s.lastServed = .main then .aux else .main))
    ∧ (q .main → ¬ q .aux → s.arbiterLink = some .main) ∧ (¬ q .main → q .aux → s.arbiterLink = some .aux)
    ∧ (¬ q .main → ¬ q .aux → s.arbiterLink = none)
    ∧ ∀ l f rest, s.arbiterLink = some l → (s.link l).commands = f :: rest →
        s.arbiterCommand = some (decodeFrame l f)

/-- A frame of an unknown code, of a length above 36 or of another length than its code requires is answered
BAD_FRAME, and nothing else changes (R170). The model's conventions: log entry 3. -/
def Obligations.WrongFrameIsBadFrame : Prop :=
  ∀ (i : Instr) (l : Link) (f : Frame) (s : State),
    i.wf = true → encodeFrame i = some (l, f) → s.Accepts l →
    ((∃ code t, i = .unknownCode code t) ∨ 36 < f.len.toNat ∨ requiredLength i ≠ some f.len.toNat) →
    exec i s = .next (s.answered f.code ⟨l, f.seq, f.len, f.params⟩ .badFrame [])

/-- The refusals, by the first check that fails. A supervisor-only command of the right length from the aux link is answered
DENIED whatever its parameters; a command in range that names a FREE patch is answered NOT_FOUND from either link, whoever owned
the record. A staged edit is answered BAD_PARAM, NOT_FOUND, DENIED, BAD_STATE, BUSY, CONFLICT, NO_TICKET or TABLE_FULL by checks
3 to 10, and a CANCEL BAD_PARAM, NOT_FOUND, DENIED, BAD_STATE or TOO_LATE; nothing else changes (R142, R149, R169, R171 to
R179). TAKE is weight 1 of its option set, log entry 21. The model's conventions: log entry 3. -/
def Obligations.DeniedAndNotFound : Prop :=
  (∀ (i : Instr) (f : Frame) (s : State),
     encodeFrame i = some (.aux, f) → s.Accepts .aux → requiredLength i = some f.len.toNat →
     ((∃ t, i = .lock t ∨ i = .unlock t ∨ i = .clearTable t ∨ i = .portSet t ∨ i = .portStart t ∨ i = .portStop t
         ∨ i = .setAux t) ∨ ∃ t, i = .readPort t ∧ t.param 1 = 1) →
     exec i s = .next (s.answered f.code ⟨.aux, f.seq, f.len, f.params⟩ .denied []))
  ∧ (∀ (i : Instr) (t : Taken) (f : Frame) (s : State),
       (i = .retire t ∧ (t.param 1).toNat < 2 ∨ i = .mute t ∨ i = .unmute t ∨ i = .readPatch t
         ∨ i = .readCounts t ∧ (t.param 1).toNat < 2
         ∨ i = .rebind t ∧ (t.param 1).toNat < 6 ∧ (t.param 2).toNat < 16 ∧ ((t.param 3).toNat < 16 ∨ t.param 3 = 0xFF)
         ∨ i = .addDest t ∧ (t.param 1).toNat < 2 ∧ destFieldsOk (t.paramBytes 2 4) = true
             ∧ (addDestSpec t).orderOk = true
         ∨ i = .dropDest t ∧ (t.param 1).toNat < 6 ∧ (t.param 2).toNat < 16
         ∨ i = .tune t ∧ tuneFieldsOk t = true
         ∨ (i = .lock t ∨ i = .unlock t) ∧ t.link = .main) →
       encodeFrame i = some (t.link, f) → s.Accepts t.link → requiredLength i = some f.len.toNat →
       (t.param 0).toNat < 48 → (s.patch (patchOf (t.param 0))).state = .free →
       exec i s = .next (s.answered f.code t .notFound []))
  ∧ (∀ (i : Instr) (t : Taken) (f : Frame) (a : EditAsks) (s : State),
       s.asks i = some (t, a) → encodeFrame i = some (t.link, f) → s.Accepts t.link →
       requiredLength i = some f.len.toNat → f.len.toNat ≤ 36 →
       let refused (st : Status) : Prop := exec i s = .next (s.answered f.code t st [])
       (¬ a.fields → refused .badParam)
       ∧ (a.fields →
         (¬ a.found → refused .notFound)
         ∧ (a.found →
           (¬ a.rights → refused .denied)
           ∧ (a.rights →
             (¬ a.state → refused .badState)
             ∧ (a.state →
               (¬ a.idle → refused .busy)
               ∧ (a.idle →
                 (¬ a.slots → refused .conflict)
                 ∧ (a.slots →
                   (¬ a.ticket → refused .noTicket) ∧ (a.ticket → ¬ a.record → refused .tableFull))))))))
  ∧ ∀ (t : Taken) (s : State),
      let k := s.ticket (ticketOf (t.param 0))
      let refused (st : Status) : Prop := exec (.cancel t) s = .next (s.answered 0x20 t st [])
      t.len = 1 → s.Accepts t.link →
      (12 ≤ (t.param 0).toNat → refused .badParam)
      ∧ ((t.param 0).toNat < 12 →
        (k.state = .free → refused .notFound)
        ∧ (k.state ≠ .free →
          (t.link = .aux → (k.link = .main ∨ k.orphan = true) → refused .denied)
          ∧ ((t.link = .aux → k.link = .aux ∧ k.orphan = false) →
            (k.op ≠ some .install → k.op ≠ some .rebind → k.op ≠ some .addDest → refused .badState)
            ∧ ((k.op = some .install ∨ k.op = some .rebind ∨ k.op = some .addDest) → k.state = .done →
              refused .tooLate))))

/-! ## Staged edits -/

/-- An INSTALL that neither takes over nor evicts takes the lowest FREE record, appends it to the install-order list,
applies what lies on ports not held as LOCKED and reserves the rest; nothing else changes. With TAKE, what takes over on ports
held as LOCKED waits as transfers: the entries are reserved beside their holders, the donors' destinations are marked TAKEN, and
the ticket names each donor once, in the order of its first taker. A single destination that takes over on another port has its
transfer applied at once: the donor's destination is released, and a donor left with none is freed and posted as EVICTED. The
same whatever ports its destinations lie on and however many of them take over, from one donor or several (R7, R8, R12, R15, R55,
R66, R84 to R87, R194). TAKE is weight 1 of the option set, log entry 21. The model's conventions: log entry 3. -/
def Obligations.InstallAccepted : Prop :=
  (∀ (t : Taken) (s : State) (d : Descriptor) (n : PatchNo) (k : TicketNo),
     s.Installs t d k → s.freeRecord? = some n →
     let owner := if t.link = .aux then s.rights.tag else d.owner
     let es := Endpoint.sourceActivation d.source.port :: d.dests.map fun x => .destActivation x.name
     let left := es.filter fun e => s.pcHolds e.port
     let k' := stagedTicket t.link .install none n [] es.length left
     ∃ s', exec (.install t) s = .next s'
       ∧ (∀ p q, s'.inEntry p q =
           match d.source.roles.find? fun x => p = d.source.port ∧ x.1 = q with
           | some x => some ⟨if s.pcHolds p then .reservation else .holder, n, x.2⟩
           | none => s.inEntry p q)
       ∧ (∀ p q, s'.outEntry p q =
           match d.dests.find? fun x => x.port = p ∧ q ∈ x.slots with
           | some x =>
             if s.pcHolds p then ⟨none, some ⟨n, x.first⟩⟩ else ⟨some ⟨n, x.first, decide (q ≠ x.first)⟩, none⟩
           | none => s.outEntry p q)
       ∧ s' = (({ s with
             patches := putCell s.patches n (installedRecord d owner s.pcHolds)
             order := s.order ++ [n]
             changes := s.changes + 1
             inMap := s'.inMap
             outMap := s'.outMap
             tickets := putCell s.tickets k k' } : State).doneAt t.link k left.isEmpty).answered
           0x10 t .accepted (acceptedBytes k k'.state n none))
  ∧ (∀ (t : Taken) (s : State) (d : Descriptor) (n : PatchNo) (k : TicketNo) (taken : DestSpec → Option (PatchNo × Slot)),
       s.InstallsTaking t d k taken → s.freeRecord? = some n → (∀ x ∈ d.dests, s.pcHolds x.port = true) →
       let owner := if t.link = .aux then s.rights.tag else d.owner
       let es := Endpoint.sourceActivation d.source.port :: d.dests.map fun x =>
         match taken x with
         | none => .destActivation x.name
         | some (m, f) => .transfer x.name m f
       let donors := ((d.dests.filterMap taken).map Prod.fst).eraseDups
       let k' := stagedTicket t.link .install none n donors es.length (es.filter fun e => s.pcHolds e.port)
       ∃ s', exec (.install t) s = .next s'
         ∧ s'.patch n = installedRecord d owner s.pcHolds
         ∧ (∀ m, m ≠ n → s'.patch m = { s.patch m with
             dests := (s.patch m).dests.map fun y =>
               if es.any fun e => e.takes m y.name then { y with marker := some .taken } else y })
         ∧ (∀ p q, s'.inEntry p q =
             match d.source.roles.find? fun x => p = d.source.port ∧ x.1 = q with
             | some x => some ⟨if s.pcHolds p then .reservation else .holder, n, x.2⟩
             | none => s.inEntry p q)
         ∧ (∀ p q, s'.outEntry p q =
             match d.dests.find? fun x => x.port = p ∧ q ∈ x.slots with
             | some x => ⟨(s.outEntry p q).holder, some ⟨n, x.first⟩⟩
             | none => s.outEntry p q)
         ∧ s' = ({ s with
               patches := s'.patches
               order := s.order ++ [n]
               changes := s.changes + 1
               inMap := s'.inMap
               outMap := s'.outMap
               tickets := putCell s.tickets k k' } : State).answered
             0x10 t .accepted (acceptedBytes k .waiting n none))
  ∧ (∀ (t : Taken) (s : State) (d : Descriptor) (x : DestSpec) (n m : PatchNo) (k : TicketNo) (f : Slot),
       s.InstallsTaking t d k (fun _ => some (m, f)) → d.dests = [x] → s.freeRecord? = some n →
       s.pcHolds x.port = false →
       let owner := if t.link = .aux then s.rights.tag else d.owner
       let left := [Endpoint.sourceActivation d.source.port].filter fun e => s.pcHolds e.port
       let k' := stagedTicket t.link .install none n [] 2 left
       let rest := (s.patch m).without fun y => y = ⟨x.port, f⟩
       let s₁ := if rest.dests = [] then s.evicts m else s
       ∃ s', exec (.install t) s = .next s'
         ∧ s'.patch n = installedRecord d owner s.pcHolds
         ∧ s'.patch m = (if rest.dests = [] then Patch.free else rest)
         ∧ (∀ y, y ≠ n → y ≠ m → s'.patch y = s.patch y)
         ∧ s'.order = (if rest.dests = [] then s.order.erase m else s.order) ++ [n]
         ∧ (∀ p q, s'.inEntry p q =
             match d.source.roles.find? fun y => p = d.source.port ∧ y.1 = q with
             | some y => some ⟨if s.pcHolds p then .reservation else .holder, n, y.2⟩
             | none => (s.inEntry p q).filter fun c => ¬(rest.dests = [] ∧ c.patch = m))
         ∧ (∀ p q, s'.outEntry p q =
             if p = x.port ∧ q ∈ x.slots then ⟨some ⟨n, x.first, decide (q ≠ x.first)⟩, none⟩
             else ⟨(s.outEntry p q).holder.filter fun h =>
                 ¬(h.patch = m ∧ (rest.dests = [] ∨ p = x.port ∧ h.first = f)),
               (s.outEntry p q).resv.filter fun v => ¬(rest.dests = [] ∧ v.patch = m)⟩)
         ∧ (∀ p, s'.port p = { s.port p with
             latch := (s.port p).latch.filter fun l => ¬(rest.dests = [] ∧ l.patch = m) })
         ∧ s' = (({ s₁ with
               patches := s'.patches, order := s'.order
               changes := (if rest.dests = [] ∧ m ∈ s.order then s.changes + 1 else s.changes) + 1
               inMap := s'.inMap, outMap := s'.outMap
               ports := s'.ports
               tickets := putCell s.tickets k k' } : State).doneAt t.link k left.isEmpty).answered
             0x10 t .accepted (acceptedBytes k k'.state n none))
  ∧ (∀ (t : Taken) (s : State) (d : Descriptor) (n : PatchNo) (k : TicketNo) (taken : DestSpec → Option (PatchNo × Slot)),
       TableFits s → s.InstallsTaking t d k taken → s.freeRecord? = some n →
       ∃ s', exec (.install t) s = .next s' ∧ s.Installed s' t d k n none taken)

/-- An INSTALL that finds no FREE record and may evict frees the victim, its claims and latches included, posts EVICTED for it
by the owner tag it held, and reuses its record, which then stands last in the install-order list; the list change count rises
by 2. The new patch's claims, ticket and answer are those of any INSTALL. With TAKE too: the patches it takes from are no
candidates, the victim is freed first, and a donor left with no destination is freed and posted beside it, with one change more
(R12, R15, R90, R91, R92, R194). EVICT and TAKE are weights of the option set, log entry 21. The model's conventions: log entry
3. -/
def Obligations.InstallEvicts : Prop :=
  (∀ (t : Taken) (s : State) (d : Descriptor) (v : PatchNo) (k : TicketNo),
     s.Installs t d k → s.freeRecord? = none → d.mayEvict = true → s.victim? t.link d.priority [] = some v →
     let owner := if t.link = .aux then s.rights.tag else d.owner
     let es := Endpoint.sourceActivation d.source.port :: d.dests.map fun x => .destActivation x.name
     let left := es.filter fun e => s.pcHolds e.port
     let k' := stagedTicket t.link .install none v [] es.length left
     ∃ s', exec (.install t) s = .next s'
       ∧ (∀ p q, s'.inEntry p q =
           match d.source.roles.find? fun x => p = d.source.port ∧ x.1 = q with
           | some x => some ⟨if s.pcHolds p then .reservation else .holder, v, x.2⟩
           | none => (s.inEntry p q).filter fun c => c.patch ≠ v)
       ∧ (∀ p q, s'.outEntry p q =
           match d.dests.find? fun x => x.port = p ∧ q ∈ x.slots with
           | some x =>
             if s.pcHolds p then ⟨none, some ⟨v, x.first⟩⟩ else ⟨some ⟨v, x.first, decide (q ≠ x.first)⟩, none⟩
           | none =>
             ⟨(s.outEntry p q).holder.filter fun h => h.patch ≠ v, (s.outEntry p q).resv.filter fun y => y.patch ≠ v⟩)
       ∧ (∀ p, s'.port p = { s.port p with latch := (s.port p).latch.filter fun l => l.patch ≠ v })
       ∧ s' = (({ s.evicts v with
             patches := putCell s.patches v (installedRecord d owner s.pcHolds)
             order := s.order.erase v ++ [v]
             changes := s.changes + 2
             inMap := s'.inMap
             outMap := s'.outMap
             ports := s'.ports
             tickets := putCell s.tickets k k' } : State).doneAt t.link k left.isEmpty).answered
           0x10 t .accepted (acceptedBytes k k'.state v (some v)))
  ∧ ∀ (t : Taken) (s : State) (d : Descriptor) (v : PatchNo) (k : TicketNo) (taken : DestSpec → Option (PatchNo × Slot)),
      TableFits s → s.InstallsTaking t d k taken → s.freeRecord? = none → d.mayEvict = true →
      s.victim? t.link d.priority ((d.dests.filterMap taken).map Prod.fst).eraseDups = some v →
      ∃ s', exec (.install t) s = .next s' ∧ s.Installed s' t d k v (some v) taken

/-- The victim of an eviction is the candidate of lowest priority, and of those the one that stands earliest in the
install-order list; there is none exactly where there is no candidate (R91). -/
def Obligations.VictimChoice : Prop :=
  ∀ (s : State) (l : Link) (priority : Fin 4) (donors : List PatchNo),
    let candidate (m : PatchNo) : Prop :=
      m ∈ s.order ∧ (s.patch m).state = .live ∧ (s.patch m).locked = false ∧ s.busy m = false ∧ m ∉ donors
      ∧ (s.patch m).priority < priority ∧ (l = .aux → (s.patch m).owner = s.rights.tag)
    (∀ v, s.victim? l priority donors = some v →
      candidate v ∧ ∀ m, candidate m → (s.patch v).priority < (s.patch m).priority
        ∨ (s.patch v).priority = (s.patch m).priority ∧ s.order.idxOf v ≤ s.order.idxOf m)
    ∧ (s.victim? l priority donors = none ↔ ∀ m, ¬ candidate m)

/-- A RETIRE whose ports are all held as LOCKED marks every destination and waits. Where no destination's port is held the patch
is free at the end of the acceptance and the ticket DONE, an intake close that would wait applied with it. Where some are held
and some not, those on the others are released at once and intake closes if the source's port is not held; the rest wait. Where
the source's port alone is not held, intake closes at the acceptance, the latch is cleared, and every release waits (R78 to
R82). The model's conventions: log entry 3. -/
def Obligations.RetireAccepted : Prop :=
  ∀ (t : Taken) (s : State) (k : TicketNo) (src : Source),
    let n := patchOf (t.param 0)
    let r := s.patch n
    let es := Endpoint.intakeClose src.port :: r.dests.map fun d => .release d.name
    let waits (left : List Endpoint) := stagedTicket t.link .retire (some (modeOf (t.param 1))) n [] es.length left
    t.len = 2 → (t.param 0).toNat < 48 → (t.param 1).toNat < 2 → s.Editable t n k →
    r.source = some src → r.dests ≠ [] → (r.dests.map Destination.name).Nodup →
    ((s.pcHolds src.port = true ∧ ∀ d ∈ r.dests, s.pcHolds d.port = true) →
      exec (.retire t) s = .next (({ s with
          patches := putCell s.patches n
            { r with state := .retiring, dests := r.dests.map fun d => { d with marker := some .retire } }
          tickets := putCell s.tickets k (waits es) } : State).answered
        0x11 t .accepted (acceptedBytes k .waiting n none)))
    ∧ ((∀ d ∈ r.dests, s.pcHolds d.port = false) →
      ∃ s', exec (.retire t) s = .next s' ∧ s.Freed s' n ∧ (∀ m, m ≠ n → s'.patch m = s.patch m)
        ∧ s' = (({ s with
              patches := s'.patches, order := s'.order, changes := s'.changes, inMap := s'.inMap, outMap := s'.outMap
              ports := s'.ports, tickets := putCell s.tickets k (waits []) } : State).doneAt t.link k true).answered
            0x11 t .accepted (acceptedBytes k .done n none))
    ∧ ((∃ d ∈ r.dests, s.pcHolds d.port = true) → (∃ d ∈ r.dests, s.pcHolds d.port = false) →
      let released (nm : DestName) : Bool := !s.pcHolds nm.port && (r.dests.map Destination.name).contains nm
      let r' := r.without released
      ∃ s', exec (.retire t) s = .next s'
        ∧ (∀ p q, s'.outEntry p q =
            ⟨(s.outEntry p q).holder.filter fun h => ¬(h.patch = n ∧ released ⟨p, h.first⟩), (s.outEntry p q).resv⟩)
        ∧ (∀ p, s'.port p =
            if s.pcHolds src.port then s.port p
            else { s.port p with latch := (s.port p).latch.filter fun l => l.patch ≠ n })
        ∧ s' = ({ s with
              patches := putCell s.patches n
                { r' with
                  state := .retiring
                  intake := if s.pcHolds src.port then r.intake else .closed
                  dests := r'.dests.map fun d => { d with marker := some .retire } }
              outMap := s'.outMap
              ports := s'.ports
              tickets := putCell s.tickets k (waits (es.filter fun e => s.pcHolds e.port)) } : State).answered
            0x11 t .accepted (acceptedBytes k .waiting n none))
    ∧ (s.pcHolds src.port = false → (∀ d ∈ r.dests, s.pcHolds d.port = true) →
      ∃ s', exec (.retire t) s = .next s'
        ∧ (∀ p, s'.port p = { s.port p with latch := (s.port p).latch.filter fun l => l.patch ≠ n })
        ∧ s' = ({ s with
              patches := putCell s.patches n
                { r with
                  state := .retiring, intake := .closed, dests := r.dests.map fun d => { d with marker := some .retire } }
              ports := s'.ports
              tickets := putCell s.tickets k (waits es.tail) } : State).answered
            0x11 t .accepted (acceptedBytes k .waiting n none))

/-- A REBIND to a port held as LOCKED sets the pending source and reserves its entries; to another port it moves the
source at once: the old holders go, the latch is cleared, the new entries get holders (R68, R69). The model's
conventions: log entry 3. -/
def Obligations.RebindAccepted : Prop :=
  ∀ (t : Taken) (s : State) (k : TicketNo),
    let n := patchOf (t.param 0)
    let r := s.patch n
    let src := rebindSource t
    let held := s.pcHolds src.port
    let es := if held then [Endpoint.sourceMove src.port] else []
    let k' := stagedTicket t.link .rebind none n [] 1 es
    t.len = 4 → (t.param 0).toNat < 48 → (t.param 1).toNat < 6 → (t.param 2).toNat < 16 →
    ((t.param 3).toNat < 16 ∨ t.param 3 = 0xFF) → sourceFits r.kind src.left src.right = true →
    s.Editable t n k → (t.link = .aux → s.rights.grants src.port = true) →
    (∀ x ∈ src.roles, s.inEntry src.port x.1 = none) →
    ∃ s', exec (.rebind t) s = .next s'
      ∧ (∀ p q, s'.inEntry p q =
          match src.roles.find? fun x => p = src.port ∧ x.1 = q with
          | some x => some ⟨if held then .reservation else .holder, n, x.2⟩
          | none => if held then s.inEntry p q else (s.inEntry p q).filter fun c => c.patch ≠ n)
      ∧ (∀ p, s'.port p =
          if held then s.port p else { s.port p with latch := (s.port p).latch.filter fun l => l.patch ≠ n })
      ∧ s' = (({ s with
            patches := putCell s.patches n
              (if held then { r with pendingSource := some src } else { r with source := some src, pendingSource := none })
            inMap := s'.inMap
            ports := s'.ports
            tickets := putCell s.tickets k k' } : State).doneAt t.link k es.isEmpty).answered
          0x12 t .accepted (acceptedBytes k k'.state n none)

/-- An ADD-DEST of unclaimed slots appends the destination: WAITING with its entries reserved on a port held as LOCKED, else
DORMANT with its entries held and the patch's mute target as its flag. With TAKE, slots held by one destination of a LIVE,
unlocked patch that is not busy are reserved beside their holders, that destination is marked TAKEN, and a transfer waits; on a
port not held as LOCKED the transfer is applied at once, and a donor left with no destination is freed and posted as EVICTED,
with one change of the install-order list (R5, R12, R15, R57, R70, R84 to R87). TAKE is weight 1 of the option set, log entry
21. The model's conventions: log entry 3. -/
def Obligations.AddDestAccepted : Prop :=
  (∀ (t : Taken) (s : State) (k : TicketNo),
     let n := patchOf (t.param 0)
     let r := s.patch n
     let d := addDestSpec t
     let held := s.pcHolds d.port
     let es := if held then [Endpoint.destActivation d.name] else []
     let k' := stagedTicket t.link .addDest none n [] 1 es
     let new : Destination :=
       ⟨d.port, d.form, d.first, d.second, if held then .waiting else .dormant, none, if held then false else r.muteTarget,
         0, none, none⟩
     t.len = 6 → (t.param 0).toNat < 48 → (t.param 1).toNat < 2 → destFieldsOk (t.paramBytes 2 4) = true →
     d.orderOk = true → d.form.matchesKind r.kind = true → s.Editable t n k →
     (t.link = .aux → s.rights.grants d.port = true) → r.dests.length < 4 → r.dest? d.name = none →
     (∀ q ∈ d.slots, s.outEntry d.port q = ⟨none, none⟩) →
     ∃ s', exec (.addDest t) s = .next s'
       ∧ (∀ p q, s'.outEntry p q =
           if p = d.port ∧ q ∈ d.slots then
             if held then ⟨none, some ⟨n, d.first⟩⟩ else ⟨some ⟨n, d.first, decide (q ≠ d.first)⟩, none⟩
           else s.outEntry p q)
       ∧ s' = (({ s with
             patches := putCell s.patches n { r with dests := r.dests ++ [new] }
             outMap := s'.outMap
             tickets := putCell s.tickets k k' } : State).doneAt t.link k es.isEmpty).answered
           0x13 t .accepted (acceptedBytes k k'.state n none))
  ∧ (∀ (t : Taken) (s : State) (k : TicketNo) (m : PatchNo) (f : Slot),
       let n := patchOf (t.param 0)
       let r := s.patch n
       let d := addDestSpec t
       t.len = 6 → (t.param 0).toNat < 48 → t.param 1 = 1 → destFieldsOk (t.paramBytes 2 4) = true →
       d.orderOk = true → d.form.matchesKind r.kind = true → s.Editable t n k →
       (t.link = .aux → s.rights.grants d.port = true) → r.dests.length < 4 → r.dest? d.name = none → m ≠ n →
       s.TakesOver t.link d (some (m, f)) →
       (s.pcHolds d.port = true →
         let k' := stagedTicket t.link .addDest none n [m] 1 [.transfer d.name m f]
         let new : Destination := ⟨d.port, d.form, d.first, d.second, .waiting, none, false, 0, none, none⟩
         ∃ s', exec (.addDest t) s = .next s'
           ∧ s'.patch n = { r with dests := r.dests ++ [new] }
           ∧ s'.patch m = { s.patch m with
               dests := (s.patch m).dests.map fun x =>
                 if x.name = ⟨d.port, f⟩ then { x with marker := some .taken } else x }
           ∧ (∀ x, x ≠ n → x ≠ m → s'.patch x = s.patch x)
           ∧ (∀ p q, s'.outEntry p q =
               if p = d.port ∧ q ∈ d.slots then ⟨(s.outEntry p q).holder, some ⟨n, d.first⟩⟩ else s.outEntry p q)
           ∧ s' = ({ s with
                 patches := s'.patches
                 outMap := s'.outMap
                 tickets := putCell s.tickets k k' } : State).answered
               0x13 t .accepted (acceptedBytes k .waiting n none))
       ∧ (s.pcHolds d.port = false →
         let k' := stagedTicket t.link .addDest none n [] 1 []
         let new : Destination := ⟨d.port, d.form, d.first, d.second, .dormant, none, r.muteTarget, 0, none, none⟩
         let rest := (s.patch m).without fun y => y = ⟨d.port, f⟩
         let s₁ := if rest.dests = [] then s.evicts m else s
         ∃ s', exec (.addDest t) s = .next s'
           ∧ s'.patch n = { r with dests := r.dests ++ [new] }
           ∧ s'.patch m = (if rest.dests = [] then Patch.free else rest)
           ∧ (∀ x, x ≠ n → x ≠ m → s'.patch x = s.patch x)
           ∧ s'.order = (if rest.dests = [] then s.order.erase m else s.order)
           ∧ (∀ p q, s'.inEntry p q = (s.inEntry p q).filter fun c => ¬(rest.dests = [] ∧ c.patch = m))
           ∧ (∀ p q, s'.outEntry p q =
               if p = d.port ∧ q ∈ d.slots then ⟨some ⟨n, d.first, decide (q ≠ d.first)⟩, none⟩
               else ⟨(s.outEntry p q).holder.filter fun h =>
                   ¬(h.patch = m ∧ (rest.dests = [] ∨ p = d.port ∧ h.first = f)),
                 (s.outEntry p q).resv.filter fun v => ¬(rest.dests = [] ∧ v.patch = m)⟩)
           ∧ (∀ p, s'.port p = { s.port p with
               latch := (s.port p).latch.filter fun l => ¬(rest.dests = [] ∧ l.patch = m) })
           ∧ s' = (({ s₁ with
                 patches := s'.patches, order := s'.order
                 changes := if rest.dests = [] ∧ m ∈ s.order then s.changes + 1 else s.changes
                 inMap := s'.inMap, outMap := s'.outMap, ports := s'.ports
                 tickets := putCell s.tickets k k' } : State).doneAt t.link k true).answered
               0x13 t .accepted (acceptedBytes k .done n none)))

/-- A DROP-DEST marks its destination and waits on a port held as LOCKED; on another port the destination is released
at once: its holders, its place in every owed set, the entries so emptied, and its record go (R19, R27, R37, R71). The
model's conventions: log entry 3. -/
def Obligations.DropDestAccepted : Prop :=
  ∀ (t : Taken) (s : State) (k : TicketNo),
    let n := patchOf (t.param 0)
    let r := s.patch n
    let nm := dropDestName t
    let held := s.pcHolds nm.port
    let es := if held then [Endpoint.release nm] else []
    let k' := stagedTicket t.link .dropDest none n [] 1 es
    t.len = 3 → (t.param 0).toNat < 48 → (t.param 1).toNat < 6 → (t.param 2).toNat < 16 →
    s.Editable t n k → (r.dest? nm).isSome = true → 1 < r.dests.length →
    ∃ s', exec (.dropDest t) s = .next s'
      ∧ (∀ p q, s'.outEntry p q =
          if held then s.outEntry p q
          else ⟨(s.outEntry p q).holder.filter fun h => ¬(h.patch = n ∧ p = nm.port ∧ h.first = nm.first),
            (s.outEntry p q).resv⟩)
      ∧ s' = (({ s with
            patches := putCell s.patches n
              (if held then
                { r with dests := r.dests.map fun d => if d.name = nm then { d with marker := some .drop } else d }
              else
                { r with
                  dests := r.dests.filter fun d => d.name ≠ nm
                  queue := (r.queue.map fun e => { e with owed := e.owed.filter fun x => x ≠ nm }).filter
                    fun e => e.owed ≠ [] })
            outMap := s'.outMap
            tickets := putCell s.tickets k k' } : State).doneAt t.link k es.isEmpty).answered
          0x14 t .accepted (acceptedBytes k k'.state n none)

/-- MUTE and UNMUTE set the mute target and wait once for each distinct port held as LOCKED; destinations on other
ports take the target at once (R72). The model's conventions: log entry 3. -/
def Obligations.MuteAccepted : Prop :=
  ∀ (yes : Bool) (t : Taken) (s : State) (k : TicketNo),
    let n := patchOf (t.param 0)
    let r := s.patch n
    let ps := distinctPorts r.dests
    let es := (ps.filter s.pcHolds).map Endpoint.muteApply
    let k' := stagedTicket t.link (if yes then .mute else .unmute) none n [] ps.length es
    t.len = 1 → (t.param 0).toNat < 48 → s.Editable t n k →
    exec (if yes then .mute t else .unmute t) s =
      .next ((({ s with
          patches := putCell s.patches n
            { r with
              muteTarget := yes
              dests := r.dests.map fun d => if s.pcHolds d.port then d else { d with muted := yes } }
          tickets := putCell s.tickets k k' } : State).doneAt t.link k es.isEmpty).answered
        (if yes then 0x15 else 0x16) t .accepted (acceptedBytes k k'.state n none))

/-! ## Tickets -/

/-- CANCEL of a WAITING INSTALL rolls it back in full and frees the patch; of a WAITING REBIND or ADD-DEST it removes the
reservations, the pending source and the WAITING destination. Transfers that still wait are withdrawn: the donors'
destinations lose their TAKEN markers. The ticket is DONE with outcome CANCELLED, keeps its unapplied endpoints, and is posted
to its issuing link; an orphan's is freed instead and posts nothing (R63, R73, R74, R75, R89). The model's conventions: log
entry 3. -/
def Obligations.CancelUndoes : Prop :=
  (∀ (t : Taken) (s : State) (n : PatchNo),
     let k := ticketOf (t.param 0)
     let tk := s.ticket k
     t.len = 1 → (t.param 0).toNat < 12 → s.Accepts t.link →
     tk.state = .waiting → tk.op = some .install → tk.subject = some n →
     (t.link = .aux → tk.link = .aux ∧ tk.orphan = false) →
     (tk.link = .aux → tk.orphan = false → s.rights.enabled = true) →
     (∀ e ∈ tk.awaiting, e.takesFrom n = false) →
     (∀ k', (s.ticket k').state = .waiting → n ∉ (s.ticket k').donors) →
     let ended : Ticket :=
       if tk.orphan then Ticket.free else { tk with state := .done, ending := some .cancelled, donors := [] }
     ∃ s', exec (.cancel t) s = .next s' ∧ s.Freed s' n
       ∧ (∀ m, m ≠ n → s'.patch m = { s.patch m with
           dests := (s.patch m).dests.map fun x =>
             if x.marker = some .taken ∧ tk.awaiting.any fun e => e.takes m x.name then { x with marker := none } else x })
       ∧ s' = (({ s with
             patches := s'.patches, order := s'.order, changes := s'.changes, inMap := s'.inMap, outMap := s'.outMap
             ports := s'.ports
             tickets := putCell s.tickets k ended } : State).doneAt tk.link k (!tk.orphan)).answered
           0x20 t .ok [ticketByte k])
  ∧ (∀ (t : Taken) (s : State) (n : PatchNo) (e : Endpoint),
       let k := ticketOf (t.param 0)
       let tk := s.ticket k
       let r := s.patch n
       t.len = 1 → (t.param 0).toNat < 12 → s.Accepts t.link →
       tk.state = .waiting → (tk.op = some .rebind ∨ tk.op = some .addDest) → tk.subject = some n →
       tk.awaiting = [e] → e.takesFrom n = false →
       (t.link = .aux → tk.link = .aux ∧ tk.orphan = false) →
       (tk.link = .aux → tk.orphan = false → s.rights.enabled = true) →
       let ended : Ticket :=
         if tk.orphan then Ticket.free else { tk with state := .done, ending := some .cancelled, donors := [] }
       ∃ s', exec (.cancel t) s = .next s'
         ∧ s'.patch n = { r with pendingSource := none, dests := r.dests.filter fun d => d.phase ≠ .waiting }
         ∧ (∀ m, m ≠ n → s'.patch m = { s.patch m with
             dests := (s.patch m).dests.map fun x =>
               if x.marker = some .taken ∧ e.takes m x.name then { x with marker := none } else x })
         ∧ (∀ p q, s'.inEntry p q = (s.inEntry p q).filter fun c => ¬(c.kind = .reservation ∧ c.patch = n))
         ∧ (∀ p q, s'.outEntry p q = ⟨(s.outEntry p q).holder, (s.outEntry p q).resv.filter fun v => v.patch ≠ n⟩)
         ∧ s' = (({ s with
               patches := s'.patches, inMap := s'.inMap, outMap := s'.outMap
               tickets := putCell s.tickets k ended } : State).doneAt tk.link k (!tk.orphan)).answered
             0x20 t .ok [ticketByte k])

/-- READ-TICKET reports a ticket: state, link, orphan flag, operation, subject, mode, donor list, endpoints in all, awaiting
list, outcome, 0xFF for what is absent. A DONE ticket read by its issuing link is freed and leaves that link's TICKET_DONE
set, any other ticket stays (R53, R61, R168). The model's conventions: log entries 3 and 11. -/
def Obligations.ReadTicketFreesOwnDone : Prop :=
  ∀ (t : Taken) (s : State),
    let k := ticketOf (t.param 0)
    let tk := s.ticket k
    let a := s.alerts t.link
    let subject : Byte := (tk.subject.map patchByte).getD 0xFF
    let endpoint (e : Endpoint) : List Byte := match e with
      | .sourceActivation p => [portByte p, 0, 0xFF, 0xFF, 0xFF]
      | .sourceMove p => [portByte p, 1, 0xFF, 0xFF, 0xFF]
      | .destActivation d => [portByte d.port, 2, subject, portByte d.port, slotByte d.first]
      | .transfer d donor f => [portByte d.port, 3, patchByte donor, portByte d.port, slotByte f]
      | .release d => [portByte d.port, 4, subject, portByte d.port, slotByte d.first]
      | .muteApply p => [portByte p, 5, 0xFF, 0xFF, 0xFF]
      | .intakeClose p => [portByte p, 6, 0xFF, 0xFF, 0xFF]
    let payload : List Byte :=
      [ticketStateByte tk.state, linkByte tk.link, if tk.orphan then 1 else 0, (tk.op.map opByte).getD 0xFF, subject,
        (tk.mode.map modeByte).getD 0xFF]
      ++ byte tk.donors.length :: tk.donors.map patchByte
      ++ byte tk.total :: byte tk.awaiting.length :: tk.awaiting.flatMap endpoint
      ++ [(tk.ending.map endingByte).getD 0xFF]
    t.len = 1 → (t.param 0).toNat < 12 → s.Accepts t.link → tk.state ≠ .free →
    (t.link = .aux → tk.link = .aux ∧ tk.orphan = false) →
    exec (.readTicket t) s = .next
      (State.answered
        (if tk.state = .done ∧ tk.link = t.link then
          ({ s with tickets := putCell s.tickets k Ticket.free } : State).setAlerts t.link
            { a with ticketDone := dropMember a.ticketDone k.val }
        else s)
        0x21 t .ok payload)

/-- CLEAR-TABLE ends every WAITING ticket that names an affected patch as ABORTED and frees every affected patch. The tickets
are posted to their issuing links, orphans freed unposted; of the affected patches those of the aux tag, and no others, are
posted as EVICTED. A kept patch that an aborted ticket names loses what the ticket has brought: the markers of its transfers, and
as its subject the reservations, the pending source and the WAITING destinations; its other claims, and every other patch, stay.
Each affected patch is one change of the install-order list. The answer counts patches, tickets and entries left (R12, R15, R63,
R75, R89, R94, R95, R96). The model's conventions: log entry 3. -/
def Obligations.ClearTableFrees : Prop :=
  ∀ (t : Taken) (s : State),
    let affected (m : PatchNo) : Bool := (s.patch m).state ≠ .free && !(t.param 0 == 0 && (s.patch m).locked)
    let gone := (List.finRange 48).filter affected
    let hit (k : TicketNo) : Bool := gone.any fun m => (s.ticket k).names m
    let ended := (List.finRange 12).filter hit
    let undone (m : PatchNo) : Bool := ended.any fun k => (s.ticket k).subject = some m
    let given (m : PatchNo) (nm : DestName) : Bool := ended.any fun k => (s.ticket k).awaiting.any fun e => e.takes m nm
    let posted := (ended.filter fun k => !(s.ticket k).orphan).foldl
      (fun s k => s.doneAt (if s.rights.enabled then (s.ticket k).link else .main) k true) s
    t.len = 1 → t.link = .main → (t.param 0).toNat < 2 → s.Accepts .main → TableFits s →
    ∃ s', exec (.clearTable t) s = .next s'
      ∧ (∀ m, affected m = true → s'.patch m = Patch.free)
      ∧ (∀ m, affected m = false →
          let unmarked := (s.patch m).dests.map fun x =>
            if x.marker = some .taken ∧ given m x.name then { x with marker := none } else x
          s'.patch m =
            if undone m then
              { s.patch m with pendingSource := none, dests := unmarked.filter fun x => x.phase ≠ .waiting }
            else { s.patch m with dests := unmarked })
      ∧ (∀ k, s'.ticket k =
          if hit k then
            if (s.ticket k).orphan then Ticket.free
            else { s.ticket k with state := .done, ending := some .aborted, donors := [] }
          else s.ticket k)
      ∧ (∀ p q, s'.inEntry p q = (s.inEntry p q).filter fun c =>
          !affected c.patch && !(c.kind = .reservation && undone c.patch))
      ∧ (∀ p q, s'.outEntry p q = ⟨(s.outEntry p q).holder.filter fun h => !affected h.patch,
          (s.outEntry p q).resv.filter fun v => !affected v.patch && !undone v.patch⟩)
      ∧ (∀ p, s'.port p = { s.port p with latch := (s.port p).latch.filter fun l => !affected l.patch })
      ∧ s' = ({ (gone.filter fun m => (s.patch m).owner = s.rights.tag).foldl State.evicts posted with
            patches := s'.patches
            order := s.order.filter fun m => !affected m
            changes := s.changes + byte gone.length
            inMap := s'.inMap
            outMap := s'.outMap
            ports := s'.ports
            tickets := s'.tickets } : State).answered
          0x38 t .ok [byte gone.length, byte ended.length, byte (s.order.filter fun m => !affected m).length]

/-! ## Frame starts, LOCKED exits and dormancy changes -/

/-- After a frame start of a port held as LOCKED no ticket waits on the port but for a DRAIN release; a frame start of
a port not held as LOCKED changes nothing, which is log entries 14 and 23. After a LOCKED exit no ticket waits on the port at
all, the port is held as not LOCKED, and a dormancy change is handed on, which comes after the releases: log entry 28 (R36, R56,
R58). The model's conventions: log entry 2. -/
def Obligations.PortEventsApplyAll : Prop :=
  (∀ (p : Port) (s : State), s.Foremost (.frameStart p false) →
     (∀ k, (s.ticket k).state = .waiting → (s.ticket k).subject.isSome = true) →
     (s.pcHolds p = true → ∃ s', exec (.frameStart p false) s = .next s'
       ∧ ∀ k, (s'.ticket k).state = .waiting → ∀ e ∈ (s'.ticket k).awaiting, e.port = p →
           (s.ticket k).mode = some .drain ∧ ∃ d, e = .release d)
     ∧ (s.pcHolds p = false →
         exec (.frameStart p false) s = .next { s with raised := s.raised.erase (.frameStart p false) }))
  ∧ (∀ (p : Port) (s : State), s.Foremost (.lockedExit p) →
       (∀ k, (s.ticket k).state = .waiting → (s.ticket k).subject.isSome = true) →
       ∃ s', exec (.lockedExit p) s = .next s' ∧ s'.pcLocked = putCell s.pcLocked (portIdx p) false
         ∧ (∀ k, (s'.ticket k).state = .waiting → ∀ e ∈ (s'.ticket k).awaiting, e.port ≠ p)
         ∧ s'.raised = s.raised.erase (.lockedExit p) ++ [.dormancyChange p false]
         ∧ s'.sxLocked = s.sxLocked ∧ s'.mainLink = s.mainLink ∧ s'.auxLink = s.auxLink ∧ s'.rights = s.rights)

/-- A frame start of a port on which no ticket waits but for DRAIN releases that are held back, and the LOCKED entry of a port,
touch the patches only by the recovery test and the clearing of holds; the entry makes the port held as LOCKED and hands on a
dormancy change. A LOCKED exit of a port on which no ticket waits makes the port held as not LOCKED and hands on a dormancy
change, and touches no patch (R29, R35, R36, R43, R56, R58, R81). That a LOCKED entry applies no endpoint is log entry 23. The
model's conventions: log entry 2. -/
def Obligations.FrameStartRecoversAndClears : Prop :=
  ∀ (p : Port) (s : State),
    (s.Foremost (.frameStart p false) → s.pcHolds p = true →
      (∀ k, (s.ticket k).state = .waiting → ∀ e ∈ (s.ticket k).awaiting, e.port = p → s.HeldBack k e) →
      exec (.frameStart p false) s = .next { s with
        raised := s.raised.erase (.frameStart p false)
        patches := s.patches.map fun r => r.frameStarted p })
    ∧ (s.Foremost (.frameStart p true) →
      exec (.frameStart p true) s = .next { s with
        raised := s.raised.erase (.frameStart p true) ++ [.dormancyChange p true]
        pcLocked := putCell s.pcLocked (portIdx p) true
        patches := s.patches.map fun r => r.frameStarted p })
    ∧ (s.Foremost (.lockedExit p) → (∀ k, (s.ticket k).state = .waiting → ∀ e ∈ (s.ticket k).awaiting, e.port ≠ p) →
      exec (.lockedExit p) s = .next { s with
        raised := s.raised.erase (.lockedExit p) ++ [.dormancyChange p false]
        pcLocked := putCell s.pcLocked (portIdx p) false })

/-- A destination activation that waits is applied at its port's frame start, where the destination becomes UNPRIMED, or at
its LOCKED exit, where it becomes DORMANT: its entries get their holders, it takes the mute target, and the ticket of which it
was the last endpoint completes, an INSTALL's patch becoming LIVE. Where more waits on the port, the endpoint that comes first is
applied, its ticket waits for what is left, and the event goes on from there (R9, R56, R57, R58, R59). The model's conventions:
log entries 2 and 20. -/
def Obligations.DestinationActivated : Prop :=
  (∀ (exit : Bool) (p : Port) (s : State) (k : TicketNo) (n : PatchNo) (nm : DestName) (d : Destination),
     let event : Event := if exit then .lockedExit p else .frameStart p false
     s.Foremost event → s.OnlyWaits p k n (.destActivation nm) →
     ((s.ticket k).op = some .addDest ∨ (s.ticket k).op = some .install) → s.pcHolds p = true →
     (s.patch n).dest? nm = some d → d.phase = .waiting →
     ∃ s', exec event.instr s = .next s'
       ∧ (s'.patch n).dest? nm = some { d with
           phase := if exit then .dormant else .unprimed
           muted := (s.patch n).muteTarget
           hold := if exit then d.hold else none }
       ∧ (∀ q ∈ d.slots, (s'.outEntry p q).holder.map OutHolder.patch = some n
           ∧ (s'.outEntry p q).holder.map OutHolder.first = some nm.first
           ∧ ∀ v, (s'.outEntry p q).resv = some v → v.patch ≠ n)
       ∧ (∀ p' q, ¬(p' = p ∧ q ∈ d.slots) → s'.outEntry p' q = s.outEntry p' q)
       ∧ s'.inMap = s.inMap ∧ s'.order = s.order ∧ s.Completed s' k
       ∧ ((s.ticket k).op = some .install → (s.patch n).state = .pending → (s'.patch n).state = .live)
       ∧ ∀ m, m ≠ n → s'.patch m = if exit then s.patch m else (s.patch m).frameStarted p)
  ∧ ∀ (exit : Bool) (p : Port) (s : State) (k : TicketNo) (n : PatchNo) (nm : DestName) (d : Destination)
      (before after : List Endpoint),
      let event := portEvent exit p
      let r := s.patch n
      s.FirstOn exit p k n (.destActivation nm) before after → TableFits s → NamesFit s →
      r.dest? nm = some d → d.phase = .waiting →
      ∃ s₁, exec event.instr s = exec event.instr s₁
        ∧ (∀ p' q, s₁.outEntry p' q =
            if p' = p ∧ q ∈ d.slots then
              ⟨some ⟨n, d.first, decide (q ≠ d.first)⟩, (s.outEntry p' q).resv.filter fun v => v.patch ≠ n⟩
            else s.outEntry p' q)
        ∧ s₁ = ({ s with
            patches := putCell s.patches n { r with dests := r.dests.map fun x =>
              if x.name = nm ∧ x.phase = .waiting then
                { x with phase := if exit then .dormant else .unprimed, muted := r.muteTarget }
              else x }
            outMap := s₁.outMap } : State).left k (before ++ after) (s.ticket k).donors

/-- A transfer that waits is applied at its port's frame start, where the taker's destination becomes UNPRIMED, or at its LOCKED
exit, where it becomes DORMANT: the donor's destination is released, the taker's holds the entries, and the ticket of which it
was the last endpoint completes, an INSTALL's patch becoming LIVE; a donor left with no destination is freed and posted as
EVICTED, which is one change of the install-order list, another stays. Where more waits on the port, the endpoint that comes
first is applied, a donor of which nothing is left to take leaves the ticket, which waits for the rest, and the event goes on
from there (R9, R12, R15, R56, R57, R58, R59, R86, R87). The model's conventions: log entries 2 and 20. -/
def Obligations.TransferApplied : Prop :=
  (∀ (exit : Bool) (p : Port) (s : State) (k : TicketNo) (n m : PatchNo) (nm : DestName) (f : Slot) (d : Destination),
     let event : Event := if exit then .lockedExit p else .frameStart p false
     s.Foremost event → s.OnlyWaits p k n (.transfer nm m f) →
     ((s.ticket k).op = some .addDest ∨ (s.ticket k).op = some .install) → s.pcHolds p = true →
     (s.patch n).dest? nm = some d → d.phase = .waiting → m ≠ n →
     (s.patch n).state ≠ .free → (s.patch m).state = .live →
     let rest := (s.patch m).without fun x => x = ⟨p, f⟩
     ∃ s', exec event.instr s = .next s'
       ∧ (s'.patch n).dest? nm = some { d with
           phase := if exit then .dormant else .unprimed
           muted := (s.patch n).muteTarget
           hold := if exit then d.hold else none }
       ∧ (∀ q ∈ d.slots, (s'.outEntry p q).holder.map OutHolder.patch = some n)
       ∧ (∀ p' q h, (s'.outEntry p' q).holder = some h → h.patch = m → ¬(p' = p ∧ h.first = f))
       ∧ (rest.dests ≠ [] → (s'.patch m = if exit then rest else rest.frameStarted p) ∧ s'.order = s.order
           ∧ s'.changes = s.changes)
       ∧ (rest.dests = [] → s'.patch m = Patch.free ∧ s'.order = s.order.erase m
           ∧ s'.changes = (if m ∈ s.order then s.changes + 1 else s.changes)
           ∧ (s'.alerts (s.told (s.patch m).owner)).evicted.getLsbD m.val = true
           ∧ ∀ p' q c, s'.inEntry p' q = some c → c.patch ≠ m)
       ∧ s.Completed s' k
       ∧ ((s.ticket k).op = some .install → (s.patch n).state = .pending → (s'.patch n).state = .live)
       ∧ ∀ x, x ≠ n → x ≠ m → s'.patch x = if exit then s.patch x else (s.patch x).frameStarted p)
  ∧ ∀ (exit : Bool) (p : Port) (s : State) (k : TicketNo) (n m : PatchNo) (nm : DestName) (f : Slot) (d : Destination)
      (before after : List Endpoint),
      let event := portEvent exit p
      let r := s.patch n
      let rest := (s.patch m).without fun x => x = ⟨p, f⟩
      let freed : Bool := decide (rest.dests = [])
      let more := (before ++ after).any fun e => e.takesFrom m
      let s₀ := if freed then s.evicts m else s
      s.FirstOn exit p k n (.transfer nm m f) before after → TableFits s → NamesFit s →
      r.dest? nm = some d → d.phase = .waiting → (s.patch m).state ≠ .free →
      ∃ s₁, exec event.instr s = exec event.instr s₁
        ∧ (∀ p' q, s₁.inEntry p' q = (s.inEntry p' q).filter fun c => !(freed && c.patch = m))
        ∧ (∀ p' q, s₁.outEntry p' q =
            if p' = p ∧ q ∈ d.slots then
              ⟨some ⟨n, d.first, decide (q ≠ d.first)⟩,
                (s.outEntry p' q).resv.filter fun v => v.patch ≠ n && !(freed && v.patch = m)⟩
            else ⟨(s.outEntry p' q).holder.filter fun h => ¬(h.patch = m ∧ (freed ∨ p' = p ∧ h.first = f)),
              (s.outEntry p' q).resv.filter fun v => !(freed && v.patch = m)⟩)
        ∧ (∀ o, s₁.port o = { s.port o with latch := (s.port o).latch.filter fun l => !(freed && l.patch = m) })
        ∧ s₁ = ({ s₀ with
            patches := putCell (putCell s.patches n { r with dests := r.dests.map fun x =>
              if x.name = nm ∧ x.phase = .waiting then
                { x with phase := if exit then .dormant else .unprimed, muted := r.muteTarget }
              else x }) m (if freed then Patch.free else rest)
            order := if freed then s.order.erase m else s.order
            changes := if freed ∧ m ∈ s.order then s.changes + 1 else s.changes
            inMap := s₁.inMap
            outMap := s₁.outMap
            ports := s₁.ports } : State).left k (before ++ after)
              ((s.ticket k).donors.filter fun x => x ≠ m || more && !freed)

/-- A release that waits, of a RETIRE or of a DROP-DEST, is applied at its port's LOCKED exit, and at its frame start: of a
DROP-DEST and under CUT always, under DRAIN once intake is CLOSED and, if the destination is PRIMED, nothing is owed to it. The
destination leaves its patch with its holders and its place in every owed set. With the last destination of a RETIRE the patch
is freed and the ticket completes, whatever else it awaited; before that the ticket goes on waiting. A DRAIN release that fails
the test stays. Where more waits on the port (other releases of the patch among it), the release that comes first of those that
may be applied is applied, its ticket waits for what is left or, with the last destination of a RETIRE, completes with the patch
freed, and the event goes on from there; that the releases of an exit come before its dormancy change is log entry 28 (R12, R15,
R19, R27, R37, R56, R58, R59, R71, R80, R81, R82). The model's conventions:
log entries 2, 16 and 20. -/
def Obligations.RetireReleaseTest : Prop :=
  (∀ (exit : Bool) (p : Port) (s : State) (k : TicketNo) (n : PatchNo) (d : Destination) (mode : RetireMode)
     (before after : List Endpoint),
     let event : Event := if exit then .lockedExit p else .frameStart p false
     let r := s.patch n
     let passes : Prop := exit = true ∨ mode = .cut ∨
       (r.intake = .closed ∧ (d.phase = .primed → ∀ e ∈ r.queue, d.name ∉ e.owed))
     let rest := r.without fun x => x = d.name
     let started (r : Patch) : Patch := if exit then r else r.frameStarted p
     s.Foremost event → s.WaitsAmong p k n (.release d.name) before after →
     (s.ticket k).op = some .retire → (s.ticket k).mode = some mode → s.pcHolds p = true → r.state = .retiring →
     d ∈ r.dests → (r.dests.map Destination.name).Nodup →
     ∃ s', exec event.instr s = .next s'
       ∧ (passes → rest.dests = [] → s.Freed s' n ∧ s.Completed s' k)
       ∧ (passes → rest.dests ≠ [] → before ++ after ≠ [] →
           s'.patch n = started rest ∧ s'.ticket k = { s.ticket k with awaiting := before ++ after }
           ∧ (∀ p' q, s'.outEntry p' q = ⟨(s.outEntry p' q).holder.filter fun h =>
               ¬(h.patch = n ∧ p' = p ∧ h.first = d.first), (s.outEntry p' q).resv⟩)
           ∧ s'.order = s.order ∧ s'.mainAlerts = s.mainAlerts ∧ s'.auxAlerts = s.auxAlerts)
       ∧ (¬ passes → s'.patch n = r.frameStarted p ∧ s'.tickets = s.tickets ∧ s'.outMap = s.outMap ∧ s'.order = s.order)
       ∧ ∀ m, m ≠ n → s'.patch m = started (s.patch m))
  ∧ (∀ (exit : Bool) (p : Port) (s : State) (k : TicketNo) (n : PatchNo) (nm : DestName),
       let event : Event := if exit then .lockedExit p else .frameStart p false
       let rest := (s.patch n).without fun x => x = nm
       let started (r : Patch) : Patch := if exit then r else r.frameStarted p
       s.Foremost event → s.OnlyWaits p k n (.release nm) → (s.ticket k).op = some .dropDest → (s.ticket k).mode = none →
       s.pcHolds p = true → (s.patch n).state = .live →
       ∃ s', exec event.instr s = .next s' ∧ s.Completed s' k ∧ s'.patch n = started rest
         ∧ (∀ p' q, s'.outEntry p' q = ⟨(s.outEntry p' q).holder.filter fun h =>
             ¬(h.patch = n ∧ p' = p ∧ h.first = nm.first), (s.outEntry p' q).resv⟩)
         ∧ s'.inMap = s.inMap ∧ s'.order = s.order ∧ ∀ m, m ≠ n → s'.patch m = started (s.patch m))
  ∧ ∀ (exit : Bool) (p : Port) (s : State) (k : TicketNo) (n : PatchNo) (nm : DestName) (before after : List Endpoint),
      let event := portEvent exit p
      let r := s.patch n
      let rest := r.without fun x => x = nm
      let freed : Bool := r.state = .retiring && decide (rest.dests = [])
      s.FirstOn exit p k n (.release nm) before after → TableFits s → NamesFit s →
      ∃ s₁, exec event.instr s = exec event.instr s₁
        ∧ (∀ p' q, s₁.inEntry p' q = (s.inEntry p' q).filter fun c => !(freed && c.patch = n))
        ∧ (∀ p' q, s₁.outEntry p' q =
            ⟨(s.outEntry p' q).holder.filter fun h => ¬(h.patch = n ∧ (freed ∨ p' = p ∧ h.first = nm.first)),
              (s.outEntry p' q).resv.filter fun v => !(freed && v.patch = n)⟩)
        ∧ (∀ o, s₁.port o = { s.port o with latch := (s.port o).latch.filter fun l => !(freed && l.patch = n) })
        ∧ s₁ = ({ s with
            patches := putCell s.patches n (if freed then Patch.free else rest)
            order := if freed then s.order.erase n else s.order
            changes := if freed ∧ n ∈ s.order then s.changes + 1 else s.changes
            inMap := s₁.inMap
            outMap := s₁.outMap
            ports := s₁.ports } : State).left k (if freed then [] else before ++ after) (s.ticket k).donors

/-- A source move, a source activation, a mute apply and an intake close that wait are applied at the port's frame start and at
its LOCKED exit. A source move and an intake close clear the latch; the intake close of a RETIRE leaves the source's holders,
and the ticket goes on waiting for the releases left. Where more waits on the port, the endpoint that comes first is applied, its
ticket waits for what is left or completes, an INSTALL's patch becoming LIVE, and the event goes on from there: the intake close
of a RETIRE comes before its releases on the same port, so that the test of a DRAIN release at the same frame start finds intake
CLOSED (R9, R56, R57, R58, R59, R69, R78, R79, R81). The model's conventions: log entries 2 and 20. -/
def Obligations.PlainEndpointsApplied : Prop :=
  (∀ (exit : Bool) (p : Port) (s : State) (k : TicketNo) (n : PatchNo),
     let event : Event := if exit then .lockedExit p else .frameStart p false
     let r := s.patch n
     let started (r : Patch) : Patch := if exit then r else r.frameStarted p
     let unlatched (r : PortRec) : PortRec := { r with latch := r.latch.filter fun l => l.patch ≠ n }
     s.Foremost event → s.pcHolds p = true →
     (∀ src, s.OnlyWaits p k n (.sourceMove p) → (s.ticket k).op = some .rebind → r.pendingSource = some src → src.port = p →
       (∀ q, src.right = some q → src.left < q) →
       ∃ s', exec event.instr s = .next s' ∧ s.Completed s' k
         ∧ s'.patch n = started { r with source := some src, pendingSource := none }
         ∧ (∀ p' q, s'.inEntry p' q =
             match src.roles.find? fun x => p' = p ∧ x.1 = q with
             | some x => some ⟨.holder, n, x.2⟩
             | none => (s.inEntry p' q).filter fun c => c.patch ≠ n)
         ∧ (∀ o, s'.port o = unlatched (s.port o)) ∧ s'.outMap = s.outMap)
     ∧ (∀ src, s.OnlyWaits p k n (.sourceActivation p) → (s.ticket k).op = some .install → r.source = some src →
       src.port = p → (∀ q, src.right = some q → src.left < q) → r.state = .pending → r.intake = .waiting →
       ∃ s', exec event.instr s = .next s' ∧ s.Completed s' k
         ∧ s'.patch n = started { r with state := .live, intake := .opened }
         ∧ (∀ p' q, s'.inEntry p' q =
             match src.roles.find? fun x => p' = p ∧ x.1 = q with
             | some x => some ⟨.holder, n, x.2⟩
             | none => s.inEntry p' q)
         ∧ s'.ports = s.ports ∧ s'.outMap = s.outMap)
     ∧ (s.OnlyWaits p k n (.muteApply p) → ((s.ticket k).op = some .mute ∨ (s.ticket k).op = some .unmute) →
       ∃ s', exec event.instr s = .next s' ∧ s.Completed s' k
         ∧ s'.patch n = started { r with dests := r.dests.map fun (d : Destination) =>
             if d.port = p then { d with muted := r.muteTarget } else d }
         ∧ s'.ports = s.ports ∧ s'.inMap = s.inMap ∧ s'.outMap = s.outMap)
     ∧ (∀ before after, s.WaitsAmong p k n (.intakeClose p) before after → (s.ticket k).op = some .retire →
       r.dests ≠ [] → before ++ after ≠ [] →
       ∃ s', exec event.instr s = .next s'
         ∧ s'.ticket k = { s.ticket k with awaiting := before ++ after }
         ∧ s'.patch n = started { r with intake := .closed }
         ∧ (∀ o, s'.port o = unlatched (s.port o))
         ∧ s'.inMap = s.inMap ∧ s'.outMap = s.outMap ∧ s'.order = s.order))
  ∧ ∀ (exit : Bool) (p : Port) (s : State) (k : TicketNo) (n : PatchNo) (before after : List Endpoint),
      let event := portEvent exit p
      let r := s.patch n
      let donors := (s.ticket k).donors
      let unlatched (r : PortRec) : PortRec := { r with latch := r.latch.filter fun l => l.patch ≠ n }
      let put (r' : Patch) : State := { s with patches := putCell s.patches n r' }
      TableFits s → NamesFit s →
      (∀ src, s.FirstOn exit p k n (.sourceMove p) before after → r.pendingSource = some src → src.port = p →
        ∃ s₁, exec event.instr s = exec event.instr s₁
          ∧ (∀ p' q, s₁.inEntry p' q =
              match src.roles.find? fun x => p' = p ∧ x.1 = q with
              | some x => some ⟨.holder, n, x.2⟩
              | none => (s.inEntry p' q).filter fun c => c.patch ≠ n)
          ∧ (∀ o, s₁.port o = unlatched (s.port o))
          ∧ s₁ = ({ put { r with source := some src, pendingSource := none } with
              inMap := s₁.inMap, ports := s₁.ports } : State).left k (before ++ after) donors)
      ∧ (∀ src, s.FirstOn exit p k n (.sourceActivation p) before after → r.source = some src → src.port = p →
        ∃ s₁, exec event.instr s = exec event.instr s₁
          ∧ (∀ p' q, s₁.inEntry p' q =
              match src.roles.find? fun x => p' = p ∧ x.1 = q with
              | some x => some ⟨.holder, n, x.2⟩
              | none => s.inEntry p' q)
          ∧ s₁ = ({ put { r with intake := if r.intake = .waiting then .opened else r.intake } with
              inMap := s₁.inMap } : State).left k (before ++ after) donors)
      ∧ (s.FirstOn exit p k n (.muteApply p) before after →
        exec event.instr s = exec event.instr ((put { r with dests := r.dests.map fun (d : Destination) =>
          if d.port = p then { d with muted := r.muteTarget } else d }).left k (before ++ after) donors))
      ∧ (s.FirstOn exit p k n (.intakeClose p) before after → r.dests ≠ [] →
        ∃ s₁, exec event.instr s = exec event.instr s₁ ∧ (∀ o, s₁.port o = unlatched (s.port o))
          ∧ s₁ = ({ put { r with intake := .closed } with ports := s₁.ports } : State).left k (before ++ after) donors)

/-- A dormancy change of an entry makes the DORMANT destinations on the port UNPRIMED without memory and hold; that of
an exit makes the reading ones DORMANT, takes them out of every owed set and drops the entries so emptied. Underrun
counts and mute-applied flags are kept. What a port has raised is taken in the order raised: an event taken before an older one
of its port has the older one taken first, with the dormancy change that this hands on (R35, R36, R118, R124, R137). A change
that is neither in flight nor the state in which the Patch Controller holds the port changes nothing, which is log entry 2, as
is that an exit may be taken before the arrivals just ahead of it. -/
def Obligations.DormancyChanges : Prop :=
  (∀ (p : Port) (entered : Bool) (s : State), s.Foremost (.dormancyChange p entered) →
     let e : Event := .dormancyChange p entered
     ((e ∈ s.raised ∨ s.pcHolds p = entered) → entered = true →
       exec (.dormancyChange p entered) s = .next { s with
         raised := s.raised.erase e
         sxLocked := putCell s.sxLocked (portIdx p) true
         patches := s.patches.map fun r => { r with dests := r.dests.map fun d =>
           if d.port = p ∧ d.phase = .dormant then { d with phase := .unprimed, memory := none, hold := none } else d } })
     ∧ ((e ∈ s.raised ∨ s.pcHolds p = entered) → entered = false →
       exec (.dormancyChange p entered) s = .next { s with
         raised := s.raised.erase e
         sxLocked := putCell s.sxLocked (portIdx p) false
         patches := s.patches.map fun r => { r with
           queue := (r.queue.map fun x => { x with owed := x.owed.filter fun nm => nm.port ≠ p }).filter fun x => x.owed ≠ []
           dests := r.dests.map fun d =>
             if d.port = p ∧ (d.phase = .unprimed ∨ d.phase = .primed) then
               { d with phase := .dormant, memory := none, hold := none }
             else d } })
     ∧ (e ∉ s.raised → s.pcHolds p ≠ entered → exec (.dormancyChange p entered) s = .next s))
  ∧ (∀ (x e : Event) (before after : List Event) (s t : State),
       s.raised = before ++ x :: after → (∀ y ∈ before, y.port ≠ e.port) → x.port = e.port →
       x.isDormancy = false → e.isDormancy = false → (∀ y ∈ after, y.port = e.port → y.isDormancy = false) →
       x ≠ e → ¬(x.isArrival = true ∧ e = .lockedExit e.port) → exec x.instr s = .next t →
       match x.handsOn with
       | none => exec e.instr s = exec e.instr t
       | some d => ∃ u, exec d.instr t = .next u ∧ exec e.instr s = exec e.instr u)

/-! ## The Sample Exchange -/

/-- An arrival that belongs to its patch, finds intake OPEN and a reading destination is appended with every reading
destination in its owed set while the queue has room; a full queue counts an overflow and under KEEP_OLD sheds, under
KEEP_NEW drops its head and appends. Any other arrival changes nothing and counts nothing (R25, R26, R30 to R33, R45). The
model's conventions: log entry 2. -/
def Obligations.ArrivalHandled : Prop :=
  (∀ (n : PatchNo) (p : Port) (q : Slot) (x : Sample) (s : State),
     let r := s.patch n
     let readers := ((r.dests.filter fun d => d.phase = .unprimed ∨ d.phase = .primed).map Destination.name).dedup
     let up := if r.overflows < 65535 then r.overflows + 1 else r.overflows
     s.Foremost (.arrival n p q x) → r.state ≠ .free →
     ((∃ v, x = .single v) ∧ s.inEntry p q = some ⟨.holder, n, .single⟩
       ∨ (∃ a b, x = .pair a b) ∧ s.inEntry p q = some ⟨.holder, n, .right⟩) →
     r.intake = .opened → readers ≠ [] →
     let r' : Patch :=
       if r.queue.length < r.depth then { r with queue := r.queue ++ [⟨x, readers⟩] }
       else match r.overflow with
         | .keepOld => { r with overflows := up, intake := .shed }
         | .keepNew => { r with overflows := up, queue := r.queue.tail ++ [⟨x, readers⟩] }
     exec (.arrival n p q x) s = .next
       (({ s with raised := s.raised.erase (.arrival n p q x), patches := putCell s.patches n r' } : State).counted n
         r.overflows r'.overflows))
  ∧ (∀ (n : PatchNo) (p : Port) (q : Slot) (x : Sample) (s : State), s.Foremost (.arrival n p q x) →
       ((s.patch n).state = .free
         ∨ (∀ role, s.inEntry p q ≠ some ⟨.holder, n, role⟩) ∨ s.inEntry p q = some ⟨.holder, n, .left⟩
         ∨ (s.patch n).intake ≠ .opened
         ∨ ∀ d ∈ (s.patch n).dests, d.phase ≠ .unprimed ∧ d.phase ≠ .primed) →
       exec (.arrival n p q x) s = .next { s with raised := s.raised.erase (.arrival n p q x) })

/-- A take that finds no reading destination sends the idle word; one for an UNPRIMED destination owed fewer entries
than the start level sends the fill word, leaves it for a second slot, and counts nothing. A second-slot request sends
the hold, which is then absent; without a reading destination or a hold the idle word is sent (R38, R39, R43, R130).
What is sent reaches the lane while the span of the slot it was asked for is in progress, log entry 18. The model's
conventions: log entries 2 and 13. -/
def Obligations.FirstSlotIdleAndSecondSlot : Prop :=
  (∀ (n : PatchNo) (p : Port) (f : Slot) (s : State), s.Foremost (.take n p f) →
     let r := s.patch n
     let reads (d : Destination) : Prop := d.name = ⟨p, f⟩ ∧ (d.phase = .unprimed ∨ d.phase = .primed)
     let gone : State := { s with raised := s.raised.erase (.take n p f) }
     ((∀ d ∈ r.dests, ¬ reads d) →
       exec (.take n p f) s = .next { gone with
         ports := putCell s.ports (portIdx p) ((s.port p).sending (fun q => q = f) (s.port p).config.idleWord) })
     ∧ ∀ a d b, r.dests = a ++ d :: b → reads d → (∀ y ∈ a ++ b, y.name ≠ ⟨p, f⟩) → d.phase = .unprimed →
         (r.queue.filter fun e => ⟨p, f⟩ ∈ e.owed).length < r.startLevel →
         exec (.take n p f) s = .next { gone with
           patches := putCell s.patches n { r with
             dests := a ++ { d with hold := if d.form = .twin ∨ d.form = .both then some r.fill else none } :: b }
           ports := putCell s.ports (portIdx p) ((s.port p).sending (fun q => q = f) r.fill) })
  ∧ (∀ (n : PatchNo) (p : Port) (f : Slot) (s : State), s.Foremost (.secondSlotRequest n p f) →
       let r := s.patch n
       let reads (d : Destination) : Prop := d.name = ⟨p, f⟩ ∧ (d.phase = .unprimed ∨ d.phase = .primed)
       let gone : State := { s with raised := s.raised.erase (.secondSlotRequest n p f) }
       ((∀ d ∈ r.dests, ¬ reads d) →
         exec (.secondSlotRequest n p f) s = .next { gone with
           ports := putCell s.ports (portIdx p) ((s.port p).sending (fun q => f < q) (s.port p).config.idleWord) })
       ∧ ∀ a d b, r.dests = a ++ d :: b → reads d → (∀ y ∈ a ++ b, y.name ≠ ⟨p, f⟩) →
           exec (.secondSlotRequest n p f) s = .next { gone with
             patches := putCell s.patches n { r with dests := a ++ { d with hold := none } :: b }
             ports := putCell s.ports (portIdx p)
               ((s.port p).sending (fun q => f < q) (d.hold.getD (s.port p).config.idleWord)) })

/-- A take for a PRIMED destination, or one that primes with it, delivers the oldest entry owed to it by its form,
zero while muted, and records what it sent; the destination leaves the entry's owed set, and an emptied entry leaves
the queue (R39, R40, R42). What is sent reaches the lane while the span of the first slot is in progress, log entry 18. The
model's conventions: log entries 2 and 13. -/
def Obligations.TakeDelivers : Prop :=
  ∀ (n : PatchNo) (p : Port) (f : Slot) (s : State) (a b : List Destination) (d : Destination) (older newer : List Entry)
    (e : Entry),
    let r := s.patch n
    let l := if d.muted then 0 else leftOf e.sample
    let u := if d.muted then 0 else rightOf e.sample
    let sent : Word := match d.form with
      | .right => u
      | .one | .twin | .both | .left => l
    let hold : Option Word := match d.form with
      | .twin => some l
      | .both => some u
      | .one | .left | .right => none
    let memory : Sample := match d.form with
      | .both => .pair l u
      | .right => .single u
      | .one | .twin | .left => .single l
    let owed := e.owed.filter fun x => x ≠ ⟨p, f⟩
    s.Foremost (.take n p f) →
    r.dests = a ++ d :: b → d.name = ⟨p, f⟩ → (∀ y ∈ a ++ b, y.name ≠ ⟨p, f⟩) →
    r.queue = older ++ e :: newer → (∀ x ∈ older, ⟨p, f⟩ ∉ x.owed) → ⟨p, f⟩ ∈ e.owed →
    (d.phase = .primed
      ∨ d.phase = .unprimed ∧ r.startLevel ≤ (r.queue.filter fun x => ⟨p, f⟩ ∈ x.owed).length) →
    exec (.take n p f) s = .next { s with
      raised := s.raised.erase (.take n p f)
      patches := putCell s.patches n { r with
        queue := older ++ (if owed = [] then [] else [{ e with owed := owed }]) ++ newer
        dests := a ++ { d with phase := .primed, hold := hold, memory := some memory } :: b }
      ports := putCell s.ports (portIdx p) ((s.port p).sending (fun q => q = f) sent) }

/-- A take for a PRIMED destination to which nothing is owed sends the fill word under FILL and the REPEAT memory
under REPEAT, the fill word where that is absent; it counts an underrun exactly while the source port is held as
LOCKED and intake is OPEN or SHED (R41, R44). What is sent reaches the lane while the span of the first slot is in progress, log
entry 18. The model's conventions: log entries 2 and 13. -/
def Obligations.TakeSubstitutes : Prop :=
  ∀ (n : PatchNo) (p : Port) (f : Slot) (s : State) (a b : List Destination) (d : Destination),
    let r := s.patch n
    let words : Word × Word := match r.underrun, d.memory with
      | .repeatLast, some (.single v) => (v, v)
      | .repeatLast, some (.pair l u) => (l, u)
      | .repeatLast, none | .fill, _ => (r.fill, r.fill)
    let counts : Prop :=
      (∃ src, r.source = some src ∧ s.sxHolds src.port = true) ∧ (r.intake = .opened ∨ r.intake = .shed)
    s.Foremost (.take n p f) →
    r.dests = a ++ d :: b → d.name = ⟨p, f⟩ → (∀ y ∈ a ++ b, y.name ≠ ⟨p, f⟩) → d.phase = .primed →
    (∀ e ∈ r.queue, ⟨p, f⟩ ∉ e.owed) →
    ∃ under, (counts → under = if d.underruns < 65535 then d.underruns + 1 else d.underruns)
      ∧ (¬ counts → under = d.underruns)
      ∧ exec (.take n p f) s = .next
          (({ s with
              raised := s.raised.erase (.take n p f)
              patches := putCell s.patches n { r with
                dests := a ++ { d with hold := (if d.form = .twin ∨ d.form = .both then some words.2 else none)
                                       underruns := under } :: b }
              ports := putCell s.ports (portIdx p) ((s.port p).sending (fun q => q = f) words.1) } : State).counted n
            d.underruns under)

/-! ## Patch settings and reads -/

/-- LOCK of a LIVE patch that is no donor sets its locked flag and changes nothing else; UNLOCK of a patch in use
clears it, busy or not; TUNE replaces each selected field, keeps the others and answers the four values (R180, R181,
R182). Which bit of TUNE's select set names which field is log entry 21. The model's conventions: log entry 3. -/
def Obligations.PatchSettings : Prop :=
  (∀ (t : Taken) (s : State),
     let n := patchOf (t.param 0)
     t.link = .main → t.len = 1 → (t.param 0).toNat < 48 → s.Accepts .main →
     ((s.patch n).state = .live →
       (∀ k, (s.ticket k).state = .waiting → n ∉ (s.ticket k).donors) →
       exec (.lock t) s = .next
         (({ s with patches := putCell s.patches n { s.patch n with locked := true } } : State).answered 0x28 t .ok []))
     ∧ ((s.patch n).state ≠ .free → ((s.patch n).state ≠ .live
         ∨ ∃ k, (s.ticket k).state = .waiting ∧ n ∈ (s.ticket k).donors) →
       exec (.lock t) s = .next (s.answered 0x28 t .badState []))
     ∧ ((s.patch n).state ≠ .free →
       exec (.unlock t) s = .next
         (({ s with patches := putCell s.patches n { s.patch n with locked := false } } : State).answered 0x29 t .ok [])))
  ∧ (∀ (t : Taken) (s : State),
       let n := patchOf (t.param 0)
       let r := s.patch n
       let r' : Patch := { r with
         priority := if tuneSelects t 0 then Fin.ofNat 4 (t.param 2).toNat else r.priority
         underrun := if tuneSelects t 1 then underrunOf (t.param 3) else r.underrun
         threshold := if tuneSelects t 3 then t.param 4 else r.threshold
         fill := if tuneSelects t 2 then t.param 5 ++ t.param 6 ++ t.param 7 ++ t.param 8 else r.fill }
       t.len = 9 → t.wf = true → tuneFieldsOk t = true → s.Accepts t.link → r.state ≠ .free →
       (t.link = .aux → r.owner = s.rights.tag ∧ r.locked = false) →
       exec (.tune t) s = .next
         (({ s with patches := putCell s.patches n r' } : State).answered 0x2A t .ok
           ([patchByte n, byte r'.priority.val, underrunByte r'.underrun, r'.threshold] ++ wordBytes r'.fill)))

/-- READ-PATCH, READ-TABLE and READ-SLOTMAP answer from the records as they stand, byte by byte as section 8.7 lays them out, and
change nothing; READ-TABLE reports up to 16 entries from the starting position on. READ-COUNTS reports the counts and, with its
clear option, which the aux link has for its own patches alone, sets them to 0 (R21, R22, R23, R148, R168, R192). The weights
of a byte are sets in list order, log entry 21; the weights of an output entry without a holder or a reservation, and
the role weights of an input entry without a claim, are 0, log entry 25. The model's conventions: log entry 3. -/
def Obligations.ReadsOfPatches : Prop :=
  (∀ (t : Taken) (s : State), s.Accepts t.link →
     (t.len = 1 → (t.param 0).toNat < 48 → (s.patch (patchOf (t.param 0))).state ≠ .free →
       let n := patchOf (t.param 0)
       let r := s.patch n
       let source (x : Option Source) : List Byte := match x with
         | some src => [portByte src.port, slotByte src.left, (src.right.map slotByte).getD 0xFF]
         | none => [0xFF, 0xFF, 0xFF]
       let owed (nm : DestName) : Nat := (r.queue.filter fun e => nm ∈ e.owed).length
       let waiting : List Byte := match (List.finRange 12).find? fun k => (s.ticket k).names n with
         | some k => [ticketByte k, if (s.ticket k).subject = some n then 1 else 2]
         | none => [0xFF, 0]
       exec (.readPatch t) s = .next (s.answered 0x30 t .ok
         ([patchStateByte r.state, byte r.owner.val, kindByte r.kind, byte r.priority.val,
             (if r.locked then 1 else 0) + (if r.muteTarget then 2 else 0)]
           ++ source r.source ++ source r.pendingSource
           ++ [intakeByte r.intake, byte r.depth, byte r.startLevel, overflowByte r.overflow, underrunByte r.underrun]
           ++ wordBytes r.fill
           ++ [byte r.queue.length, byte (r.overflows / 256), byte r.overflows, r.threshold]
           ++ waiting ++ byte r.dests.length :: r.dests.flatMap fun d =>
             [portByte d.port, formByte d.form, slotByte d.first, (d.second.map slotByte).getD 0xFF,
               phaseByte d.phase + 4 * markerByte d.marker + (if d.muted then 16 else 0)
                 + (if d.memory.isSome then 32 else 0),
               byte (owed d.name), byte (d.underruns / 256), byte d.underruns])))
     ∧ (t.len = 1 → (t.param 0).toNat < 48 →
       let entries := (s.order.drop (t.param 0).toNat).take 16
       exec (.readTable t) s = .next (s.answered 0x31 t .ok
         ([byte s.order.length, s.changes, byte entries.length] ++ entries.flatMap fun n =>
           [patchByte n, byte (s.patch n).owner.val,
             patchStateByte (s.patch n).state + 4 * byte (s.patch n).priority.val + (if (s.patch n).locked then 16 else 0)
               + (if s.busy n then 32 else 0)])))
     ∧ (t.len = 2 → (t.param 0).toNat < 6 → (t.param 1).toNat < 2 →
       let p := portOf (t.param 0)
       let place (n : PatchNo) (f : Slot) : Byte := byte ((s.patch n).dests.findIdx fun d => d.name = ⟨p, f⟩)
       exec (.readSlotmap t) s = .next (s.answered 0x32 t .ok
         ([byte (s.port p).config.slots, portStateByte (s.port p).state] ++ (List.finRange 16).flatMap fun q =>
           if t.param 1 = 0 then
             match s.inEntry p q with
             | none => [0, 0xFF]
             | some c => [(if c.kind = .holder then 1 else 2) + 4 * inRoleByte c.role, patchByte c.patch]
           else
             let e := s.outEntry p q
             [(e.holder.map fun h => patchByte h.patch).getD 0xFF, (e.resv.map fun v => patchByte v.patch).getD 0xFF,
               (e.holder.map fun h => place h.patch h.first + (if h.second then 4 else 0)).getD 0
                 + 16 * (e.resv.map fun v => place v.patch v.first).getD 0]))))
  ∧ (∀ (t : Taken) (s : State),
       let n := patchOf (t.param 0)
       let r := s.patch n
       let payload := [patchByte n, byte (r.overflows / 256), byte r.overflows, byte r.dests.length] ++ r.dests.flatMap fun d =>
         [portByte d.port, slotByte d.first, byte (d.underruns / 256), byte d.underruns]
       t.len = 2 → (t.param 0).toNat < 48 → s.Accepts t.link → r.state ≠ .free →
       (t.param 1 = 0 → exec (.readCounts t) s = .next (s.answered 0x33 t .ok payload))
       ∧ (t.param 1 = 1 → (t.link = .main ∨ r.owner = s.rights.tag) →
         exec (.readCounts t) s = .next
           (({ s with patches := putCell s.patches n
                        { r with overflows := 0, dests := r.dests.map fun d => { d with underruns := 0 } } } : State).answered
             0x33 t .ok payload))
       ∧ (t.param 1 = 1 → t.link = .aux → r.owner ≠ s.rights.tag →
         exec (.readCounts t) s = .next (s.answered 0x33 t .denied [])))

/-! ## Port commands -/

/-- PORT-SET of an OFF port replaces its configuration record and nothing else; a port that is not OFF keeps it and
the answer is BAD_STATE (R99). The model's conventions: log entry 3. -/
def Obligations.PortSetReplacesConfig : Prop :=
  ∀ (t : Taken) (s : State),
    let p := portOf (t.param 0)
    let c : PortConfig :=
      ⟨roleOf (t.param 1), framingOf (t.param 2), (t.param 3).toNat, (t.param 4).toNat, (t.param 5).toNat,
        (t.param 6).toNat, t.param 7 ++ t.param 8 ++ t.param 9 ++ t.param 10, (t.param 11).toNat, (t.param 12).toNat⟩
    t.link = .main → t.len = 13 → t.wf = true → (t.param 0).toNat < 6 → (t.param 1).toNat < 2 → (t.param 2).toNat < 2 →
    c.Fits → s.Accepts .main →
    ((s.port p).state = .off →
      exec (.portSet t) s = .next
        (({ s with ports := putCell s.ports (portIdx p) { s.port p with config := c } } : State).answered 0x40 t .ok []))
    ∧ ((s.port p).state ≠ .off → exec (.portSet t) s = .next (s.answered 0x40 t .badState []))

/-- PORT-START of an OFF follower arms it, with no sample of SYNC seen yet; of an OFF leader it starts the clock, makes the port
LOCKED at its first frame start, takes its LOCKED entry with the dormancy change and posts PORT_CHANGE. A port not OFF is
answered BAD_STATE. All that a leader's port has raised before is taken first, arrivals included, so that each meets the patches
as they were before the entry's recovery test (R29, R101, R104, R105, R118, R119, R137). Where the frame position
counts from, and the slot in progress, are log entry 18. The model's conventions: log entries 3, 4, 5 and 13. -/
def Obligations.PortStarts : Prop :=
  ∀ (t : Taken) (s : State),
    let p := portOf (t.param 0)
    let r := s.port p
    let c := r.config
    let started : PortRec :=
      { r with
        good := 0, consecutive := 0, bad := false, lossTimer := none, pos := .counting .first 0, dueSlot := none
        sync := none, tail := false }
    t.link = .main → t.len = 1 → (t.param 0).toNat < 6 → s.Accepts .main →
    (r.state ≠ .off → exec (.portStart t) s = .next (s.answered 0x41 t .badState []))
    ∧ (r.state = .off → c.role = .follower →
      exec (.portStart t) s = .next (({ s with
          ports := putCell s.ports (portIdx p)
            { started with state := .armed, dout := .carrying (keepTop c.sampleWidth c.idleWord) } } : State).answered
        0x41 t .ok [1]))
    ∧ (r.state = .off → c.role = .leader → s.Clear p →
      exec (.portStart t) s = .next (((({ s with
          ports := putCell s.ports (portIdx p)
            { started with
              state := .locked, latch := none, clock := some ⟨c.divider, c.framing, c.slots * c.slotWidth⟩ }
          pcLocked := putCell s.pcLocked (portIdx p) true
          sxLocked := putCell s.sxLocked (portIdx p) true
          patches := s.patches.map fun x => (x.frameStarted p).wake p } : State).lockChanged p).answered 0x41 t .ok [3])))
    ∧ (r.state = .off → c.role = .leader → ¬ s.Clear p → s.TakenFirst p (exec (.portStart t)))

/-- PORT-STOP of an OFF port changes nothing. Another port goes OFF with every field but its configuration and frame error count
at its power-on value; if it was LOCKED, PORT_CHANGE is posted, and the LOCKED exit and its dormancy change are taken as their
own rows take them, in this order (log entry 28): no ticket waits on the port any more, no destination on it reads its patch,
and no other port but for its latch, no right, no mask and nothing of the aux link's queues changes. What the port has raised
before is taken first, but for the arrivals last raised. The answer reports the state before (R102, R118, R119, R186). The
model's conventions: log entries 3, 4 and 5. -/
def Obligations.PortStops : Prop :=
  ∀ (t : Taken) (s : State),
    let p := portOf (t.param 0)
    let r := s.port p
    let stopped : PortRec :=
      ⟨r.config, .off, .notCounting, 0, 0, false, r.frameErrors, none, none, none, none, .low, none, false⟩
    t.link = .main → t.len = 1 → (t.param 0).toNat < 6 → s.Accepts .main →
    (∀ k, (s.ticket k).state = .waiting → (s.ticket k).subject.isSome = true) →
    (r.state = .off → exec (.portStop t) s = .next (s.answered 0x42 t .ok [0]))
    ∧ (r.state ≠ .off → ¬ s.Settled p → s.TakenFirst p (exec (.portStop t)))
    ∧ (r.state ≠ .off → r.state ≠ .locked → s.Settled p →
      exec (.portStop t) s = .next
        (({ s with ports := putCell s.ports (portIdx p) stopped } : State).answered 0x42 t .ok [portStateByte r.state]))
    ∧ (r.state = .locked → s.Settled p →
      let off : State := ({ s with ports := putCell s.ports (portIdx p) stopped } : State).lockChanged p
      ∃ u v s', exec (.lockedExit p) off = .next u ∧ exec (.dormancyChange p false) u = .next v
      ∧ exec (.portStop t) s = .next s' ∧ s' = v.answered 0x42 t .ok [3] ∧ s'.port p = stopped
      ∧ (∀ o, o ≠ p → ∃ x, s'.port o = { s.port o with latch := x }) ∧ s'.rights = s.rights ∧ s'.auxLink = s.auxLink
      ∧ s'.spi = s.spi ∧ s'.i2c = s.i2c
      ∧ (∀ l, (s'.alerts l).masked = (s.alerts l).masked ∧ (s'.alerts l).frameError = (s.alerts l).frameError
          ∧ (s'.alerts l).trouble = (s.alerts l).trouble ∧ (s'.alerts l).portChange = ((s.lockChanged p).alerts l).portChange)
      ∧ (∀ k, (s'.ticket k).state = .waiting → ∀ e ∈ (s'.ticket k).awaiting, e.port ≠ p)
      ∧ (∀ n, ∀ d ∈ (s'.patch n).dests, d.port = p → d.phase ≠ .unprimed ∧ d.phase ≠ .primed)
      ∧ s'.pcLocked = putCell s.pcLocked (portIdx p) false ∧ s'.sxLocked = putCell s.sxLocked (portIdx p) false
      ∧ s'.raised = s.raised ∧ s'.mainAlerts.portChange.getLsbD (portIdx p).val = true
      ∧ (s.rights.enabled = true → s.rights.grants p = true → s'.auxAlerts.portChange.getLsbD (portIdx p).val = true)
      ∧ s'.mainLink.responses = s.mainLink.responses ++ [⟨.ok, t.seq, 0x42, [3]⟩])

/-- READ-PORT reports the configuration, the state and the counts in 18 bytes; with its clear option, from the main
link, the frame error count is then 0 (R121). The model's conventions: log entry 3. -/
def Obligations.ReadPortReports : Prop :=
  ∀ (t : Taken) (s : State),
    let p := portOf (t.param 0)
    let r := s.port p
    let c := r.config
    let payload := [roleByte c.role, framingByte c.framing, byte c.slots, byte c.slotWidth, byte c.sampleWidth,
        byte c.dataDelay] ++ wordBytes c.idleWord ++ [byte c.lossTimeout, byte c.divider, portStateByte r.state,
        byte (r.frameErrors / 256), byte r.frameErrors, byte r.good, byte r.consecutive,
        match r.lossTimer with
          | none => 0xFF
          | some k => byte k]
    t.len = 2 → (t.param 0).toNat < 6 → s.Accepts t.link → payload.length = 18
    ∧ (t.param 1 = 0 → exec (.readPort t) s = .next (s.answered 0x43 t .ok payload))
    ∧ (t.param 1 = 1 → t.link = .main →
      exec (.readPort t) s = .next
        (({ s with ports := putCell s.ports (portIdx p) { r with frameErrors := 0 } } : State).answered 0x43 t .ok payload))

/-! ## Alert commands and SET-AUX -/

/-- READ-ALERTS, taken from the head of its link's queue, reports the link's own five sets, its mask and its line in 18
bytes, and removes nothing (R187, R188). Which bit of the mask, and of its byte, stands for which cause is log entry 21. -/
def Obligations.ReadAlertsReports : Prop :=
  ∀ (t : Taken) (s : State),
    let a := s.alerts t.link
    let line : Bool := (a.ticketDone ≠ 0 && !a.masked.getLsbD 0) || (a.evicted ≠ 0 && !a.masked.getLsbD 1)
      || (a.trouble ≠ 0 && !a.masked.getLsbD 2) || (a.portChange ≠ 0 && !a.masked.getLsbD 3)
      || (a.frameError ≠ 0 && !a.masked.getLsbD 4)
    let payload := bigEndian 2 a.ticketDone.toNat ++ bigEndian 6 a.evicted.toNat ++ bigEndian 6 a.trouble.toNat
      ++ [byte a.portChange.toNat, byte a.frameError.toNat, byte a.masked.toNat, if line then 1 else 0]
    t.len = 0 → s.Accepts t.link →
    (s.link t.link).commands.head? = some ⟨0x50, t.seq, t.len, t.params⟩ →
    payload.length = 18 ∧ exec (.readAlerts t) s = .next (s.answered 0x50 t .ok payload)

/-- ACK-ALERTS, taken from the head of its link's queue, removes the named members from the link's own sets, keeps the
others, and reports the sets after it; a set that names a member beyond its range is BAD_PARAM and removes nothing
(R189). -/
def Obligations.AckAlertsRemoves : Prop :=
  ∀ (t : Taken) (s : State),
    let k := ackSetsOf t
    t.len = 16 → s.Accepts t.link →
    (s.link t.link).commands.head? = some ⟨0x51, t.seq, t.len, t.params⟩ →
    ((k.ticketDone < 2 ^ 12 ∧ k.evicted < 2 ^ 48 ∧ k.trouble < 2 ^ 48 ∧ k.portChange < 2 ^ 6 ∧ k.frameError < 2 ^ 6) →
      ∃ a : Alerts, exec (.ackAlerts t) s = .next ((s.setAlerts t.link a).answered 0x51 t .ok
          (bigEndian 2 a.ticketDone.toNat ++ bigEndian 6 a.evicted.toNat ++ bigEndian 6 a.trouble.toNat
            ++ [byte a.portChange.toNat, byte a.frameError.toNat]))
        ∧ a.masked = (s.alerts t.link).masked
        ∧ (∀ i, a.ticketDone.getLsbD i = ((s.alerts t.link).ticketDone.getLsbD i && !k.ticketDone.testBit i))
        ∧ (∀ i, a.evicted.getLsbD i = ((s.alerts t.link).evicted.getLsbD i && !k.evicted.testBit i))
        ∧ (∀ i, a.trouble.getLsbD i = ((s.alerts t.link).trouble.getLsbD i && !k.trouble.testBit i))
        ∧ (∀ i, a.portChange.getLsbD i = ((s.alerts t.link).portChange.getLsbD i && !k.portChange.testBit i))
        ∧ (∀ i, a.frameError.getLsbD i = ((s.alerts t.link).frameError.getLsbD i && !k.frameError.testBit i)))
    ∧ (¬(k.ticketDone < 2 ^ 12 ∧ k.evicted < 2 ^ 48 ∧ k.trouble < 2 ^ 48 ∧ k.portChange < 2 ^ 6 ∧ k.frameError < 2 ^ 6) →
      exec (.ackAlerts t) s = .next (s.answered 0x51 t .badParam []))

/-- SET-ALERT-MASK, taken from the head of its link's queue, replaces the link's own mask and answers it, and adds and
removes no member; a bit beyond the fifth cause is BAD_PARAM (R190). Which bit of the byte masks which cause is log entry 21. -/
def Obligations.SetAlertMaskReplaces : Prop :=
  ∀ (t : Taken) (s : State), t.len = 1 → s.Accepts t.link →
    (s.link t.link).commands.head? = some ⟨0x52, t.seq, t.len, t.params⟩ →
    ((t.param 0).toNat < 32 →
      exec (.setAlertMask t) s = .next
        ((s.setAlerts t.link { s.alerts t.link with masked := (t.param 0).setWidth 5 }).answered 0x52 t .ok [t.param 0]))
    ∧ (32 ≤ (t.param 0).toNat → exec (.setAlertMask t) s = .next (s.answered 0x52 t .badParam []))

/-- SET-AUX replaces enable, tag and grant; enabling starts the link empty; disabling empties its queues, flag and
cause sets, abandons its transaction, frees its DONE tickets and makes its WAITING ones orphans; a repeated enable field changes
the rights record alone. No patch, claim or main-link state changes (R63, R140, R165, R166). Where the bus stands after the
disable is log entry 9. The model's conventions: log entry 3. -/
def Obligations.SetAuxEnablesAndDisables : Prop :=
  ∀ (t : Taken) (s : State),
    let on : Bool := t.param 0 == 1
    let rights : AuxRights := ⟨on, Fin.ofNat 8 (t.param 1).toNat, (t.param 2).setWidth 6⟩
    let emptied : State := { s with
      rights := rights
      auxLink := ⟨[], [], none, s.auxLink.sent⟩
      auxAlerts := ⟨0, 0, 0, 0, 0, s.auxAlerts.masked⟩ }
    t.link = .main → t.len = 3 → (t.param 0).toNat < 2 → 1 ≤ (t.param 1).toNat → (t.param 1).toNat ≤ 7 →
    (t.param 2).toNat < 64 → s.Accepts .main →
    (s.rights.enabled = on → exec (.setAux t) s = .next (({ s with rights := rights } : State).answered 0x60 t .ok []))
    ∧ (s.rights.enabled = false → on = true → exec (.setAux t) s = .next (emptied.answered 0x60 t .ok []))
    ∧ (s.rights.enabled = true → on = false → exec (.setAux t) s = .next
        (({ emptied with
            i2c := { s.i2c with phase := .ignoring, bits := [], ninth := .no }
            tickets := s.tickets.map fun k =>
              if k.link = .aux ∧ k.state = .done then Ticket.free
              else if k.link = .aux ∧ k.state = .waiting then { k with orphan := true }
              else k } : State).answered 0x60 t .ok []))

/-! ## The transports -/

/-- A transaction of the main link: while SPI_CS_N is high SPI_DO is at high impedance; during the selector the part sends 1s. A
SEND sends 1s throughout, and its end is judged: TRUNCATED where the header or a declared parameter byte is missing, whatever
the queue holds; FULL where the queue holds 4 frames; else the frame joins the tail and last-refused is cleared. Bits after the
last whole byte are discarded. A transaction with another selector than SEND, FETCH and STATUS, or one that ends before its
selector is complete, changes nothing (R153, R155, R156, R157). What happens on the pins may be cut anywhere, and `sent` is the
model's own field, which is log entry 9. -/
def Obligations.SendJudged : Prop :=
  (∀ (bytes : List Byte) (extra : List Bool) (s : State), s.spi = none → extra.length < 8 →
     let k := s.mainLink
     let bits := byteBits 0x01 ++ bytes.flatMap byteBits ++ extra
     let pins := .select :: clocks bits ++ [.deselect]
     let quiet := List.replicate bits.length true
     let whole : Prop := 3 ≤ bytes.length ∧ 3 + (bytes.getD 2 0).toNat ≤ bytes.length
     (¬ whole → exec (.send pins) s = .next { s with mainLink := { k with lastRefused := some .truncated, sent := quiet } })
     ∧ (whole → 4 ≤ k.commands.length →
       exec (.send pins) s = .next { s with mainLink := { k with lastRefused := some .full, sent := quiet } })
     ∧ (whole → k.commands.length < 4 →
       exec (.send pins) s = .next { s with mainLink := { k with
         commands := k.commands ++ [⟨bytes.getD 0 0, bytes.getD 1 0, bytes.getD 2 0,
           ((bytes.drop 3).take (bytes.getD 2 0).toNat).take 36⟩]
         lastRefused := none
         sent := quiet } }))
  ∧ (∀ (b : Byte) (bits : List Bool) (s : State), s.spi = none →
       let silent (n : Nat) : State := { s with mainLink := { s.mainLink with sent := List.replicate n true } }
       (b ≠ 0x01 → b ≠ 0x02 → b ≠ 0x03 →
         exec (.send (.select :: clocks (byteBits b ++ bits) ++ [.deselect])) s = .next (silent (8 + bits.length)))
       ∧ (bits.length < 8 → exec (.send (.select :: clocks bits ++ [.deselect])) s = .next (silent bits.length))
       ∧ s.spiDo = none ∧ ∀ t, bits.length < 8 → exec (.send (.select :: clocks bits)) s = .next t → t.spiDo = some true)
  ∧ ∀ (a b : List SpiEvent) (s t : State), exec (.send a) s = .next t →
      exec (.send (a ++ b)) s = exec (.send b) t ∧ exec (.fetch a) s = .next t ∧ exec (.status a) s = .next t

/-- At the selector a FETCH captures the oldest response, or the empty marker where there is none, and a STATUS the status
block: the free command places (one held by an aux frame being received is taken), the responses queued, last-refused and the
alert line. From then on what was captured is sent, first bit first, and 1s after it. At the end of a FETCH the response leaves
its queue where every one of its bytes was clocked out (R154, R156, R158, R159). What happens on the pins may be cut anywhere,
and `sent` is the model's own field, which is log entry 9. -/
def Obligations.FetchAndStatus : Prop :=
  (∀ s : State, s.spi = none →
     let k := s.mainLink
     let quiet : LinkRec := { k with sent := List.replicate 8 true }
     let captured (b : Byte) (out : List Byte) (response : Bool) : State :=
       { s with mainLink := quiet, spi := some ⟨[], some b, [], out, response⟩ }
     (∀ r rest, k.responses = r :: rest →
       exec (.fetch (.select :: clocks (byteBits 0x02))) s = .next
         (captured 0x02 (statusByte r.status :: r.seq :: r.code :: byte r.payload.length :: r.payload) true))
     ∧ (k.responses = [] →
       exec (.fetch (.select :: clocks (byteBits 0x02))) s = .next
         (captured 0x02 ([0, 0, 0, 4] ++ s.statusBlock .main) false))
     ∧ exec (.status (.select :: clocks (byteBits 0x03))) s = .next (captured 0x03 (s.statusBlock .main) false))
  ∧ (∀ (bits : List Bool) (got out : List Byte) (response : Bool) (s : State),
       let k := s.mainLink
       let sent := k.sent ++ levels (out.drop got.length) bits.length
       (s.spi = some ⟨[], some 0x02, got, out, response⟩ →
         exec (.fetch (clocks bits ++ [.deselect])) s = .next { s with
           spi := none
           mainLink := { k with
             sent := sent
             responses := if response ∧ out.length ≤ got.length + bits.length / 8 then k.responses.tail else k.responses } })
       ∧ (s.spi = some ⟨[], some 0x03, got, out, response⟩ →
         exec (.status (clocks bits ++ [.deselect])) s = .next { s with spi := none, mainLink := { k with sent := sent } }))
  ∧ (∀ s : State,
       s.statusBlock .main = [byte (4 - s.mainLink.commands.length), byte s.mainLink.responses.length,
         refusedByte s.mainLink.lastRefused, boolByte s.mainAlerts.line]
       ∧ s.statusBlock .aux = [
           byte (4 - (s.auxLink.commands.length + (match s.i2c.phase with
             | .writing (_ :: _) => 1
             | .writing [] | .ignoring | .address _ | .refused | .reading _ _ => 0))),
           byte s.auxLink.responses.length, refusedByte s.auxLink.lastRefused, boolByte s.auxAlerts.line])

/-- The data bytes of an aux write. The first: with 4 places taken it is answered NACK and FULL is set; with room it is
acknowledged and holds a place. Each further byte is acknowledged up to the end of the frame; after it, and in a refused write,
every byte is answered NACK and ignored. At the stop or the repeated start a whole frame is queued in its place and last-refused
is cleared, or the place is given back as TRUNCATED; the end of a refused write, or of one without a data byte, changes no queue,
place or flag (R153, R155, R161). What happens on the bus may be cut anywhere, and `sent` is the model's own field, which is log
entry 9. The first byte is judged at the start of its acknowledge, log entry 31. -/
def Obligations.AuxWriteJudged : Prop :=
  (∀ (b : Byte) (w : Bool) (s : State),
     let k := s.auxLink
     let acked := k.sent ++ List.replicate 8 true ++ [false]
     let nacked := k.sent ++ List.replicate 9 true
     (s.i2c = busAt w (.writing []) →
       (4 ≤ k.commands.length →
         exec (.auxWriteFirstByte (byteWires b true)) s = .next { s with
           auxLink := { k with lastRefused := some .full, sent := nacked }, i2c := busAt true .refused })
       ∧ (k.commands.length < 4 →
         exec (.auxWriteFirstByte (byteWires b true)) s = .next { s with
           auxLink := { k with sent := acked }, i2c := busAt true (.writing [b]) }))
     ∧ (∀ x xs, s.i2c = busAt w (.writing (x :: xs)) →
       (frameOfBytes (x :: xs) = none →
         exec (.auxWriteEnd (byteWires b true)) s = .next { s with
           auxLink := { k with sent := acked }, i2c := busAt true (.writing (x :: xs ++ [b])) })
       ∧ (∀ f, frameOfBytes (x :: xs) = some f →
         exec (.auxWriteEnd (byteWires b true)) s = .next { s with
           auxLink := { k with sent := nacked }, i2c := busAt true (.writing (x :: xs)) }))
     ∧ (s.i2c = busAt w .refused →
       exec (.auxWriteEnd (byteWires b true)) s = .next { s with
         auxLink := { k with sent := nacked }, i2c := busAt true .refused }))
  ∧ (∀ (w : Bool) (phase : BusPhase) (s : State), s.i2c = busAt w phase →
       let k := s.auxLink
       let ends (k' : LinkRec) : Prop :=
         exec (.auxWriteEnd stopWires) s = .next { s with auxLink := k', i2c := ⟨⟨true, true⟩, none, false, .ignoring, [], .no⟩ }
         ∧ exec (.auxWriteEnd startWires) s = .next { s with
             auxLink := { k' with sent := [] }
             i2c := ⟨⟨false, false⟩, none, false, .address (decide (phase = .writing [])), [], .no⟩ }
       ((phase = .writing [] ∨ phase = .refused ∨ phase = .ignoring) → ends k)
       ∧ ∀ b rest, phase = .writing (b :: rest) →
         (∀ f, frameOfBytes (b :: rest) = some f → ends { k with commands := k.commands ++ [f], lastRefused := none })
         ∧ (frameOfBytes (b :: rest) = none → ends { k with lastRefused := some .truncated }))

/-- Addressing and reading on the aux link. A start condition on the idle bus begins a transaction. The part acknowledges its
own address while enabled and ignores every other, and while disabled every address, up to the next start condition. A read
after a write of no data byte shifts out the status block; another read shifts out the oldest response, or the empty marker,
as it stood at the address. Each byte is sent while the host acknowledges, 0xFF after the last; the response leaves its queue
when its last byte is acknowledged; a NACK ends the read (R154, R160, R162). The rows of the link differ in no effect, what
happens on the bus may be cut anywhere, and `sent` is the model's own field: log entry 9. What a read shifts out is captured at
the start of the address acknowledge, log entry 31. -/
def Obligations.AuxReads : Prop :=
  (∀ s : State, s.i2c = ⟨⟨true, true⟩, none, false, .ignoring, [], .no⟩ →
     exec (.statusRead [⟨true, false⟩, ⟨false, false⟩]) s = .next { s with
       auxLink := { s.auxLink with sent := [] }, i2c := ⟨⟨false, false⟩, none, false, .address false, [], .no⟩ })
  ∧ (∀ (a : BitVec 7) (read afterEmpty w : Bool) (s : State),
       s.i2c = ⟨⟨false, w⟩, none, false, .address afterEmpty, [], .no⟩ →
       let k := s.auxLink
       let wires := byteWires (a ++ BitVec.ofBool read) true
       let acked (phase : BusPhase) : State :=
         { s with auxLink := { k with sent := k.sent ++ List.replicate 8 true ++ [false] }, i2c := busAt true phase }
       ((s.rights.enabled = false ∨ a ≠ s.auxAddress) →
         exec (.responseRead wires []) s = .next { s with
           auxLink := { k with sent := k.sent ++ List.replicate 9 true }, i2c := busAt true .ignoring })
       ∧ (s.rights.enabled = true → a = s.auxAddress →
         (read = false → exec (.auxWriteFirstByte wires) s = .next (acked (.writing [])))
         ∧ (read = true → afterEmpty = true →
           exec (.statusRead wires) s = .next (acked (.reading (s.statusBlock .aux) false)))
         ∧ (read = true → afterEmpty = false →
           (∀ r rest, k.responses = r :: rest →
             exec (.responseRead wires []) s = .next (acked (.reading
               (statusByte r.status :: r.seq :: r.code :: byte r.payload.length :: r.payload) true)))
           ∧ (k.responses = [] →
             exec (.responseRead wires []) s = .next (acked (.reading ([0, 0, 0, 4] ++ s.statusBlock .aux) false))))))
  ∧ (∀ (out : List Byte) (response w ack : Bool) (s : State), s.i2c = busAt w (.reading out response) →
       let k := s.auxLink
       exec (.responseRead (byteWires 0xFF (!ack)) []) s = .next { s with
         auxLink := { k with
           sent := k.sent ++ byteBits (out.headD 0xFF) ++ [true]
           responses := if ack ∧ response ∧ out.length = 1 then k.responses.tail else k.responses }
         i2c := busAt (!ack) (if ack then .reading out.tail response else .ignoring) })
  ∧ (∀ (b : Byte) (w ninth : Bool) (s : State), s.i2c = busAt w .ignoring →
       exec (.responseRead (byteWires b ninth) []) s = .next { s with
         auxLink := { s.auxLink with sent := s.auxLink.sent ++ List.replicate 9 true }, i2c := busAt ninth .ignoring })
  ∧ ∀ (a b : List Wire) (s t : State), exec (.responseRead a []) s = .next t →
      exec (.responseRead (a ++ b) []) s = exec (.responseRead b []) t
      ∧ exec (.responseRead a b) s = exec (.responseRead b []) t ∧ exec (.statusRead a) s = .next t
      ∧ exec (.auxWriteFirstByte a) s = .next t ∧ exec (.auxWriteEnd a) s = .next t

/-- Power-on and RESET_N return everything to its power-on value, abandon the transactions, release the lines and sample the aux
address; only the commands still to come and the levels that the bus has outside the part are kept, which is the model's choice
(R7, R15, R51, R52, R122, R140, R160, R167, R193; log entries 15 and 27). -/
def Obligations.PowerOnResets : Prop :=
  ∀ (a : BitVec 2) (s : State),
    exec (.powerOnReset a) s = .next { State.reset with
      pending := s.pending, auxAddress := 0x2A#7 + a.setWidth 7, i2c := ⟨s.i2c.wire, none, false, .ignoring, [], .no⟩ }

/-! ## Framing -/

/-- How a follower acquires lock: the first edge in ARMED or LOST starts LOCKING; an on-time edge ending a good frame counts it,
one ending a bad frame does not; the second good frame makes the port LOCKED, which raises the LOCKED entry with its frame start
and posts PORT_CHANGE. OFF ports and leaders act on no edge, and samples whose last makes none change nothing. Takes and
second-slot requests still in flight are answered first, log entry 4 (R105, R106, R108, R109, R115, R123, R124, R133). The
samples are those since the last edge, log entry 6; the frame position, the slot in progress and the tail bit are log entry 18;
an edge at the very bit clock of a slot event is log entry 29. -/
def Obligations.FollowerAcquiresLock : Prop :=
  ∀ (p : Port) (samples : List Bool) (s : State),
    let r := s.port p
    let n := samples.length
    let row := exec (.frameStartEdge p samples) s
    let put (x : PortRec) : State := { s with ports := putCell s.ports (portIdx p) x }
    ((r.config.role = .leader ∨ r.state = .off ∨ ¬ r.Sees .frameStart samples) → row = .next s)
    ∧ (r.config.role = .follower → r.state = .locking → n < r.pos.clocks → row = .next s)
    ∧ (r.config.role = .follower → r.Sees .frameStart samples → (r.state = .armed ∨ r.state = .lost ∨
        r.state = .locking ∧ r.pos.clocks ≤ n) → ¬ s.Answered p → s.TakenFirst p (exec (.frameStartEdge p samples)))
    ∧ (r.config.role = .follower → r.config.Fits → r.Sees .frameStart samples → s.Answered p →
      (r.state = .armed → row = .next (put
        { r.fresh (lastSample samples) (decide (r.pos.clocks + n - 1 ≠ 0 ∧
              (r.pos.clocks + n - 1) % (r.config.slots * r.config.slotWidth) = 0 ∧ r.config.dataDelay = 1)
            && r.lastBit (r.config.slots - 1)) with
          state := .locking, good := 0 }))
      ∧ (r.state = .lost →
        row = .next (put { r.fresh (lastSample samples) (r.frameTail n) with state := .locking, good := 0 }))
      ∧ (r.state = .locking → r.pos.clocks ≤ n → r.endsFrame n → r.good ≤ 1 →
        let fresh := r.fresh (lastSample samples) (r.frameTail n)
        (r.bad = true → row = .next (put fresh))
        ∧ (r.bad = false → r.good = 0 → row = .next (put { fresh with good := 1 }))
        ∧ (r.bad = false → r.good = 1 → row = .next
            { (put { fresh with state := .locked, good := 0, consecutive := 0 }).lockChanged p with
              raised := s.raised ++ [.frameStart p true] })))

/-- Edges of a LOCKED follower and early edges: an on-time edge raises a frame start and a good frame ends the run of errors; an
early edge is a frame error, counted and posted; in LOCKING it starts the count of good frames again, in LOCKED the first and
second in a row are frame starts like any other, and the third is the LOCKED exit. Takes and second-slot requests still in
flight are answered first, log entry 4 (R106, R110, R111, R112, R117, R119, R123, R124, R132). The samples are those since the
last edge, log entry 6; the frame position, the slot in progress and the tail bit are log entry 18, DOUT is log entry 13, and an
edge at the very bit clock of a slot event is log entry 29. -/
def Obligations.FrameErrors : Prop :=
  ∀ (p : Port) (samples : List Bool) (s : State),
    let r := s.port p
    let n := samples.length
    let row := exec (.frameStartEdge p samples) s
    let put (x : PortRec) : State := { s with ports := putCell s.ports (portIdx p) x }
    let late := r.fresh (lastSample samples) (r.frameTail n)
    let early := { r.fresh (lastSample samples) false with frameErrors := r.oneError }
    r.config.role = .follower → r.config.Fits → r.Sees .frameStart samples → (r.state = .locking ∨ r.state = .locked) →
    (n < r.pos.clocks → row = .next s)
    ∧ (r.pos.clocks ≤ n →
      (s.Answered p → r.state = .locked → r.endsFrame n →
        row = .next
          { put { late with consecutive := if r.bad then r.consecutive else 0 } with
            raised := s.raised ++ [.frameStart p false] })
      ∧ (s.Answered p → ¬ r.endsFrame n →
        (r.state = .locking → row = .next ((put { early with good := 0 }).frameErred p))
        ∧ (r.state = .locked → r.consecutive < 2 →
          row = .next
            { (put { early with consecutive := r.consecutive + 1 }).frameErred p with
              raised := s.raised ++ [.frameStart p false] })
        ∧ (r.state = .locked → 2 ≤ r.consecutive →
          row = .next
            { ((put { early with
                state := .locking, good := 0, consecutive := 0
                dout := .carrying (keepTop r.config.sampleWidth r.config.idleWord) }).frameErred p).lockChanged p with
              raised := s.raised ++ [.lockedExit p] }))
      ∧ (¬ s.Answered p → s.TakenFirst p (exec (.frameStartEdge p samples))))

/-- Mid edges of a SPLIT follower in the first half of its frame: on time they begin the second half; early they are frame
errors that mark the frame bad and realign the second half, in LOCKING they start the count of good frames again, in LOCKED the
third in a row is the LOCKED exit. PULSE ports, leaders and OFF ports see none; in ARMED, in LOST and in the second half only
the sample is kept, and in ARMED the bit clocks are counted on. Takes and second-slot requests still in flight are answered
first, log entry 4 (R105, R107, R110, R111, R115, R123, R124, R132, R133). The samples are those since the last edge, log entry
6; the frame position, the slot in progress and the tail bit are log entry 18, DOUT is log entry 13, and an edge at the very bit
clock of a slot event is log entry 29. -/
def Obligations.MidEdges : Prop :=
  ∀ (p : Port) (samples : List Bool) (s : State),
    let r := s.port p
    let n := samples.length
    let row := exec (.midEdge p samples) s
    let put (x : PortRec) : State := { s with ports := putCell s.ports (portIdx p) x }
    let half := r.config.slots / 2 * r.config.slotWidth
    let second : PortRec :=
      { r with pos := .counting .second 0, dueSlot := none, sync := some (lastSample samples), tail := false }
    let early : PortRec := { second with bad := true, latch := none, frameErrors := r.oneError }
    ((r.config.role = .leader ∨ r.config.framing = .pulse ∨ r.state = .off ∨ ¬ r.Sees .mid samples) → row = .next s)
    ∧ (r.config.role = .follower → r.config.Fits → r.Sees .mid samples → r.config.framing = .split →
      (s.Answered p → r.state = .armed →
        row = .next (put { r with pos := .counting .first (r.pos.clocks + n), sync := some (lastSample samples) }))
      ∧ (s.Answered p → r.state = .lost → row = .next (put { r with sync := some (lastSample samples) }))
      ∧ ((r.state = .locking ∨ r.state = .locked) → n < r.pos.clocks → row = .next s)
      ∧ ((r.state = .armed ∨ r.state = .lost ∨ r.pos.clocks ≤ n) → ¬ s.Answered p →
        s.TakenFirst p (exec (.midEdge p samples)))
      ∧ ((r.state = .locking ∨ r.state = .locked) → r.pos.clocks ≤ n →
        (∀ c, s.Answered p → r.pos = .counting .second c → row = .next (put { r with sync := some (lastSample samples) }))
        ∧ (∀ c, s.Answered p → r.pos = .counting .first c →
          (half ≤ n → row = .next (put { second with tail := r.midTail n }))
          ∧ (r.state = .locking → n < half → row = .next ((put { early with good := 0 }).frameErred p))
          ∧ (r.state = .locked → n < half → r.consecutive < 2 →
            row = .next ((put { early with consecutive := r.consecutive + 1 }).frameErred p))
          ∧ (r.state = .locked → n < half → 2 ≤ r.consecutive →
            row = .next
              { ((put { early with
                  state := .locking, good := 0, consecutive := 0
                  dout := .carrying (keepTop r.config.sampleWidth r.config.idleWord) }).frameErred p).lockChanged p with
                raised := s.raised ++ [.lockedExit p] }))))

/-- A frame boundary of a LOCKED leader begins a new frame, clears the latch and raises a frame start; takes and second-slot
requests still in flight are answered first, log entry 4 (R103, R104, R117, R123, R124). Without a started leader there is none
and the row changes nothing, which is log entry 14; the frame position, the slot in progress and the tail bit are log entry 18.
-/
def Obligations.LeaderFrames : Prop :=
  ∀ (p : Port) (s : State),
    let r := s.port p
    (r.config.role = .leader → r.state = .locked → r.config.Fits →
      (s.Answered p →
        exec (.leaderFrameStart p) s = .next { s with
          ports := putCell s.ports (portIdx p)
            { r with
              pos := .counting .first 0, latch := none, dueSlot := none
              tail := r.frameTail (r.config.slots / (match r.config.framing with | .pulse => 1 | .split => 2)
                * r.config.slotWidth) }
          raised := s.raised ++ [.frameStart p false] })
      ∧ (¬ s.Answered p → s.TakenFirst p (exec (.leaderFrameStart p))))
    ∧ ((r.config.role = .follower ∨ r.state ≠ .locked) → exec (.leaderFrameStart p) s = .next s)

/-- A loss tick adds 1 to every running loss timer; a timer that reaches its port's timeout expires, and the LOCKED followers
among those ports raise their exits, A first, once their takes and second-slot requests are answered. The port of an expired
timer is LOST with its counts 0, and posts PORT_CHANGE if it was LOCKED; no other cause set, no mask and no frame error count
changes. The row of a loss expiry does the same to one follower, and elsewhere changes nothing (R113, R114, R119, R124, R132,
R186). The model's conventions: log entries 4, 7, 13, 14, 18, 20 and 26. -/
def Obligations.LossTimer : Prop :=
  (∀ s : State, PortsFit s →
     let expires (p : Port) : Bool := match (s.port p).lossTimer with
       | some c => decide ((s.port p).config.lossTimeout ≤ c + 1)
       | none => false
     let exits : List Port := allPorts.filter fun p => expires p && decide ((s.port p).state = .locked)
     let ticked (p : Port) : PortRec :=
       let r := s.port p
       if expires p then
         { r with
           state := .lost, lossTimer := none, good := 0, consecutive := 0, latch := none, dueSlot := none
           dout := if r.state = .locked then .carrying (keepTop r.config.sampleWidth r.config.idleWord) else r.dout }
       else { r with lossTimer := r.lossTimer.map fun c => c + 1 }
     ∃ s', exec .lossTick s = .next s'
       ∧ (∀ p, ∃ x, s'.port p = { ticked p with latch := x })
       ∧ (∀ p ∈ exits, .lockedExit p ∈ s'.raised)
       ∧ ((∀ p ∈ exits, s.Answered p) →
         (∀ p, s'.port p = ticked p)
         ∧ s' = { exits.foldl State.lockChanged s with
             ports := s'.ports, raised := s.raised ++ exits.map Event.lockedExit }))
  ∧ (∀ (p : Port) (s : State),
       let r := s.port p
       let put (x : PortRec) : State := { s with ports := putCell s.ports (portIdx p) x }
       let lost : PortRec :=
         { r with state := .lost, lossTimer := none, good := 0, consecutive := 0, latch := none, dueSlot := none }
       (r.config.role = .follower → r.state = .locking → exec (.lossExpiry p) s = .next (put lost))
       ∧ (r.config.role = .follower → r.state = .locked →
         (s.Answered p →
           exec (.lossExpiry p) s = .next
             { (put { lost with dout := .carrying (keepTop r.config.sampleWidth r.config.idleWord) }).lockChanged p with
               raised := s.raised ++ [.lockedExit p] })
         ∧ (¬ s.Answered p → s.TakenFirst p (exec (.lossExpiry p))))
       ∧ ((r.config.role = .leader ∨ r.state = .off ∨ r.state = .armed ∨ r.state = .lost) →
         exec (.lossExpiry p) s = .next s))

/-! ## Slot service -/

/-- An input slot of a LOCKED port completes at the last bit clock of its span: without a holder the value is dropped; a SINGLE
holder makes an arrival; a LEFT holder fills the latch; a RIGHT holder makes a pair arrival from a latch of its patch, which is
then absent, and else drops the value. What the port has raised before, but for the arrivals last raised, is taken first. The
span of a slot begins with the data delay at the edge of its half, one slot width for each slot before it (R117, R123, R124,
R127). The model's conventions: log entries 4 and 18. -/
def Obligations.SlotCompleteByEntry : Prop :=
  (∀ (p : Port) (n : Slot) (din : Word) (s : State),
     let r := s.port p
     let v := keepTop r.config.sampleWidth din
     let r' : PortRec := r.cameTo n (r.config.spanEnd n)
     let put (x : PortRec) : State := { s with ports := putCell s.ports (portIdx p) x }
     r.Comes n (r.config.spanEnd n) False → r.config.Fits →
     (¬ s.Settled p → s.TakenFirst p (exec (.slotComplete p n din))) ∧ (s.Settled p →
     (s.inEntry p n = none → exec (.slotComplete p n din) s = .next (put r'))
     ∧ (∀ m role, s.inEntry p n = some ⟨.reservation, m, role⟩ → exec (.slotComplete p n din) s = .next (put r'))
     ∧ (∀ m, s.inEntry p n = some ⟨.holder, m, .single⟩ →
       exec (.slotComplete p n din) s = .next { put r' with raised := s.raised ++ [.arrival m p n (.single v)] })
     ∧ (∀ m, s.inEntry p n = some ⟨.holder, m, .left⟩ →
       exec (.slotComplete p n din) s = .next (put { r' with latch := some ⟨m, v⟩ }))
     ∧ (∀ m, s.inEntry p n = some ⟨.holder, m, .right⟩ →
       (∀ l, r.latch = some ⟨m, l⟩ →
         exec (.slotComplete p n din) s = .next
           { put { r' with latch := none } with raised := s.raised ++ [.arrival m p n (.pair l v)] })
       ∧ ((∀ l, r.latch ≠ some ⟨m, l⟩) → exec (.slotComplete p n din) s = .next (put r')))))
  ∧ ∀ (c : PortConfig) (n : Slot), c.Fits →
      c.spanEnd n = c.spanStart n + c.slotWidth - 1
      ∧ ((c.framing = .pulse ∨ n.val < c.slots / 2) →
        c.halfOf n = .first ∧ c.spanStart n = n.val * c.slotWidth + c.dataDelay)
      ∧ (c.framing = .split → c.slots / 2 ≤ n.val →
        c.halfOf n = .second ∧ c.spanStart n = (n.val - c.slots / 2) * c.slotWidth + c.dataDelay)

/-- An output slot of a LOCKED port comes due at the first bit clock of its span: the entry's holder alone decides. Without one
the idle word is sent; a first slot makes a take, a second slot a second-value request. What the port has raised before, but for
the arrivals last raised, is taken first. No slot event is raised outside LOCKED, for a slot at or beyond the slots per frame, or
for a bit clock that is past or lies in another half: such a row changes nothing, which is log entry 14. A value sent keeps its
first sample-width bits, with zero in every lower bit (R123, R124, R126, R129, R130, R132). The model's conventions: log entries
4, 13 and 18. -/
def Obligations.SlotDueByEntry : Prop :=
  (∀ (p : Port) (n : Slot) (s : State),
     let r := s.port p
     let r' : PortRec := { r.cameTo n (r.config.spanStart n) with dueSlot := some n }
     let put (x : PortRec) : State := { s with ports := putCell s.ports (portIdx p) x }
     r.Comes n (r.config.spanStart n) (r.dueSlot = none) → r.config.Fits →
     (s.Settled p →
       ((s.outEntry p n).holder = none →
         exec (.slotDue p n) s = .next
           (put { r' with dout := .carrying (keepTop r.config.sampleWidth r.config.idleWord) }))
       ∧ (∀ m f, (s.outEntry p n).holder = some ⟨m, f, false⟩ →
         exec (.slotDue p n) s = .next { put r' with raised := s.raised ++ [.take m p f] })
       ∧ (∀ m f, (s.outEntry p n).holder = some ⟨m, f, true⟩ →
         exec (.slotDue p n) s = .next { put r' with raised := s.raised ++ [.secondSlotRequest m p f] }))
     ∧ (¬ s.Settled p → s.TakenFirst p (exec (.slotDue p n))))
  ∧ (∀ (p : Port) (n : Slot) (din : Word) (s : State),
       (¬ (s.port p).Comes n ((s.port p).config.spanEnd n) False → exec (.slotComplete p n din) s = .next s)
       ∧ (¬ (s.port p).Comes n ((s.port p).config.spanStart n) ((s.port p).dueSlot = none) →
         exec (.slotDue p n) s = .next s))
  ∧ (∀ (w i : Nat) (v : Word), w ≤ 32 → (keepTop w v).getLsbD i = (decide (32 - w ≤ i) && v.getLsbD i))
end

