-- ==== Sys2Proof/Laws/State.lean ====
section
/-! SUPPORT. One lemma for each field under each update of the state, and the accessors under the updates of their own
tables. -/

namespace Sys2Proof.Machine

variable (s : State)

/-! ### setPatch -/

@[simp] theorem State.setPatch_pending (n : PatchNo) (r : Patch) : (s.setPatch n r).pending = s.pending := rfl
@[simp] theorem State.setPatch_raised (n : PatchNo) (r : Patch) : (s.setPatch n r).raised = s.raised := rfl
@[simp] theorem State.setPatch_order (n : PatchNo) (r : Patch) : (s.setPatch n r).order = s.order := rfl
@[simp] theorem State.setPatch_changes (n : PatchNo) (r : Patch) : (s.setPatch n r).changes = s.changes := rfl
@[simp] theorem State.setPatch_inMap (n : PatchNo) (r : Patch) : (s.setPatch n r).inMap = s.inMap := rfl
@[simp] theorem State.setPatch_outMap (n : PatchNo) (r : Patch) : (s.setPatch n r).outMap = s.outMap := rfl
@[simp] theorem State.setPatch_tickets (n : PatchNo) (r : Patch) : (s.setPatch n r).tickets = s.tickets := rfl
@[simp] theorem State.setPatch_pcLocked (n : PatchNo) (r : Patch) : (s.setPatch n r).pcLocked = s.pcLocked := rfl
@[simp] theorem State.setPatch_sxLocked (n : PatchNo) (r : Patch) : (s.setPatch n r).sxLocked = s.sxLocked := rfl
@[simp] theorem State.setPatch_ports (n : PatchNo) (r : Patch) : (s.setPatch n r).ports = s.ports := rfl
@[simp] theorem State.setPatch_mainLink (n : PatchNo) (r : Patch) : (s.setPatch n r).mainLink = s.mainLink := rfl
@[simp] theorem State.setPatch_auxLink (n : PatchNo) (r : Patch) : (s.setPatch n r).auxLink = s.auxLink := rfl
@[simp] theorem State.setPatch_lastServed (n : PatchNo) (r : Patch) : (s.setPatch n r).lastServed = s.lastServed := rfl
@[simp] theorem State.setPatch_rights (n : PatchNo) (r : Patch) : (s.setPatch n r).rights = s.rights := rfl
@[simp] theorem State.setPatch_auxAddress (n : PatchNo) (r : Patch) : (s.setPatch n r).auxAddress = s.auxAddress := rfl
@[simp] theorem State.setPatch_spi (n : PatchNo) (r : Patch) : (s.setPatch n r).spi = s.spi := rfl
@[simp] theorem State.setPatch_i2c (n : PatchNo) (r : Patch) : (s.setPatch n r).i2c = s.i2c := rfl
@[simp] theorem State.setPatch_mainAlerts (n : PatchNo) (r : Patch) : (s.setPatch n r).mainAlerts = s.mainAlerts := rfl
@[simp] theorem State.setPatch_auxAlerts (n : PatchNo) (r : Patch) : (s.setPatch n r).auxAlerts = s.auxAlerts := rfl

/-! ### modPatch -/

@[simp] theorem State.modPatch_pending (n : PatchNo) (f : Patch → Patch) : (s.modPatch n f).pending = s.pending := rfl
@[simp] theorem State.modPatch_raised (n : PatchNo) (f : Patch → Patch) : (s.modPatch n f).raised = s.raised := rfl
@[simp] theorem State.modPatch_order (n : PatchNo) (f : Patch → Patch) : (s.modPatch n f).order = s.order := rfl
@[simp] theorem State.modPatch_changes (n : PatchNo) (f : Patch → Patch) : (s.modPatch n f).changes = s.changes := rfl
@[simp] theorem State.modPatch_inMap (n : PatchNo) (f : Patch → Patch) : (s.modPatch n f).inMap = s.inMap := rfl
@[simp] theorem State.modPatch_outMap (n : PatchNo) (f : Patch → Patch) : (s.modPatch n f).outMap = s.outMap := rfl
@[simp] theorem State.modPatch_tickets (n : PatchNo) (f : Patch → Patch) : (s.modPatch n f).tickets = s.tickets := rfl
@[simp] theorem State.modPatch_pcLocked (n : PatchNo) (f : Patch → Patch) : (s.modPatch n f).pcLocked = s.pcLocked := rfl
@[simp] theorem State.modPatch_sxLocked (n : PatchNo) (f : Patch → Patch) : (s.modPatch n f).sxLocked = s.sxLocked := rfl
@[simp] theorem State.modPatch_ports (n : PatchNo) (f : Patch → Patch) : (s.modPatch n f).ports = s.ports := rfl
@[simp] theorem State.modPatch_mainLink (n : PatchNo) (f : Patch → Patch) : (s.modPatch n f).mainLink = s.mainLink := rfl
@[simp] theorem State.modPatch_auxLink (n : PatchNo) (f : Patch → Patch) : (s.modPatch n f).auxLink = s.auxLink := rfl
@[simp] theorem State.modPatch_lastServed (n : PatchNo) (f : Patch → Patch) :
    (s.modPatch n f).lastServed = s.lastServed := rfl
@[simp] theorem State.modPatch_rights (n : PatchNo) (f : Patch → Patch) : (s.modPatch n f).rights = s.rights := rfl
@[simp] theorem State.modPatch_auxAddress (n : PatchNo) (f : Patch → Patch) :
    (s.modPatch n f).auxAddress = s.auxAddress := rfl
@[simp] theorem State.modPatch_spi (n : PatchNo) (f : Patch → Patch) : (s.modPatch n f).spi = s.spi := rfl
@[simp] theorem State.modPatch_i2c (n : PatchNo) (f : Patch → Patch) : (s.modPatch n f).i2c = s.i2c := rfl
@[simp] theorem State.modPatch_mainAlerts (n : PatchNo) (f : Patch → Patch) :
    (s.modPatch n f).mainAlerts = s.mainAlerts := rfl
@[simp] theorem State.modPatch_auxAlerts (n : PatchNo) (f : Patch → Patch) :
    (s.modPatch n f).auxAlerts = s.auxAlerts := rfl

/-! ### mapPatches -/

@[simp] theorem State.mapPatches_pending (f : Patch → Patch) : (s.mapPatches f).pending = s.pending := rfl
@[simp] theorem State.mapPatches_raised (f : Patch → Patch) : (s.mapPatches f).raised = s.raised := rfl
@[simp] theorem State.mapPatches_order (f : Patch → Patch) : (s.mapPatches f).order = s.order := rfl
@[simp] theorem State.mapPatches_changes (f : Patch → Patch) : (s.mapPatches f).changes = s.changes := rfl
@[simp] theorem State.mapPatches_inMap (f : Patch → Patch) : (s.mapPatches f).inMap = s.inMap := rfl
@[simp] theorem State.mapPatches_outMap (f : Patch → Patch) : (s.mapPatches f).outMap = s.outMap := rfl
@[simp] theorem State.mapPatches_tickets (f : Patch → Patch) : (s.mapPatches f).tickets = s.tickets := rfl
@[simp] theorem State.mapPatches_pcLocked (f : Patch → Patch) : (s.mapPatches f).pcLocked = s.pcLocked := rfl
@[simp] theorem State.mapPatches_sxLocked (f : Patch → Patch) : (s.mapPatches f).sxLocked = s.sxLocked := rfl
@[simp] theorem State.mapPatches_ports (f : Patch → Patch) : (s.mapPatches f).ports = s.ports := rfl
@[simp] theorem State.mapPatches_mainLink (f : Patch → Patch) : (s.mapPatches f).mainLink = s.mainLink := rfl
@[simp] theorem State.mapPatches_auxLink (f : Patch → Patch) : (s.mapPatches f).auxLink = s.auxLink := rfl
@[simp] theorem State.mapPatches_lastServed (f : Patch → Patch) : (s.mapPatches f).lastServed = s.lastServed := rfl
@[simp] theorem State.mapPatches_rights (f : Patch → Patch) : (s.mapPatches f).rights = s.rights := rfl
@[simp] theorem State.mapPatches_auxAddress (f : Patch → Patch) : (s.mapPatches f).auxAddress = s.auxAddress := rfl
@[simp] theorem State.mapPatches_spi (f : Patch → Patch) : (s.mapPatches f).spi = s.spi := rfl
@[simp] theorem State.mapPatches_i2c (f : Patch → Patch) : (s.mapPatches f).i2c = s.i2c := rfl
@[simp] theorem State.mapPatches_mainAlerts (f : Patch → Patch) : (s.mapPatches f).mainAlerts = s.mainAlerts := rfl
@[simp] theorem State.mapPatches_auxAlerts (f : Patch → Patch) : (s.mapPatches f).auxAlerts = s.auxAlerts := rfl

/-! ### setTicket -/

@[simp] theorem State.setTicket_pending (t : TicketNo) (k : Ticket) : (s.setTicket t k).pending = s.pending := rfl
@[simp] theorem State.setTicket_raised (t : TicketNo) (k : Ticket) : (s.setTicket t k).raised = s.raised := rfl
@[simp] theorem State.setTicket_patches (t : TicketNo) (k : Ticket) : (s.setTicket t k).patches = s.patches := rfl
@[simp] theorem State.setTicket_order (t : TicketNo) (k : Ticket) : (s.setTicket t k).order = s.order := rfl
@[simp] theorem State.setTicket_changes (t : TicketNo) (k : Ticket) : (s.setTicket t k).changes = s.changes := rfl
@[simp] theorem State.setTicket_inMap (t : TicketNo) (k : Ticket) : (s.setTicket t k).inMap = s.inMap := rfl
@[simp] theorem State.setTicket_outMap (t : TicketNo) (k : Ticket) : (s.setTicket t k).outMap = s.outMap := rfl
@[simp] theorem State.setTicket_pcLocked (t : TicketNo) (k : Ticket) : (s.setTicket t k).pcLocked = s.pcLocked := rfl
@[simp] theorem State.setTicket_sxLocked (t : TicketNo) (k : Ticket) : (s.setTicket t k).sxLocked = s.sxLocked := rfl
@[simp] theorem State.setTicket_ports (t : TicketNo) (k : Ticket) : (s.setTicket t k).ports = s.ports := rfl
@[simp] theorem State.setTicket_mainLink (t : TicketNo) (k : Ticket) : (s.setTicket t k).mainLink = s.mainLink := rfl
@[simp] theorem State.setTicket_auxLink (t : TicketNo) (k : Ticket) : (s.setTicket t k).auxLink = s.auxLink := rfl
@[simp] theorem State.setTicket_lastServed (t : TicketNo) (k : Ticket) :
    (s.setTicket t k).lastServed = s.lastServed := rfl
@[simp] theorem State.setTicket_rights (t : TicketNo) (k : Ticket) : (s.setTicket t k).rights = s.rights := rfl
@[simp] theorem State.setTicket_auxAddress (t : TicketNo) (k : Ticket) :
    (s.setTicket t k).auxAddress = s.auxAddress := rfl
@[simp] theorem State.setTicket_spi (t : TicketNo) (k : Ticket) : (s.setTicket t k).spi = s.spi := rfl
@[simp] theorem State.setTicket_i2c (t : TicketNo) (k : Ticket) : (s.setTicket t k).i2c = s.i2c := rfl
@[simp] theorem State.setTicket_mainAlerts (t : TicketNo) (k : Ticket) :
    (s.setTicket t k).mainAlerts = s.mainAlerts := rfl
@[simp] theorem State.setTicket_auxAlerts (t : TicketNo) (k : Ticket) : (s.setTicket t k).auxAlerts = s.auxAlerts := rfl

/-! ### setPort -/

@[simp] theorem State.setPort_pending (p : Port) (r : PortRec) : (s.setPort p r).pending = s.pending := rfl
@[simp] theorem State.setPort_raised (p : Port) (r : PortRec) : (s.setPort p r).raised = s.raised := rfl
@[simp] theorem State.setPort_patches (p : Port) (r : PortRec) : (s.setPort p r).patches = s.patches := rfl
@[simp] theorem State.setPort_order (p : Port) (r : PortRec) : (s.setPort p r).order = s.order := rfl
@[simp] theorem State.setPort_changes (p : Port) (r : PortRec) : (s.setPort p r).changes = s.changes := rfl
@[simp] theorem State.setPort_inMap (p : Port) (r : PortRec) : (s.setPort p r).inMap = s.inMap := rfl
@[simp] theorem State.setPort_outMap (p : Port) (r : PortRec) : (s.setPort p r).outMap = s.outMap := rfl
@[simp] theorem State.setPort_tickets (p : Port) (r : PortRec) : (s.setPort p r).tickets = s.tickets := rfl
@[simp] theorem State.setPort_pcLocked (p : Port) (r : PortRec) : (s.setPort p r).pcLocked = s.pcLocked := rfl
@[simp] theorem State.setPort_sxLocked (p : Port) (r : PortRec) : (s.setPort p r).sxLocked = s.sxLocked := rfl
@[simp] theorem State.setPort_mainLink (p : Port) (r : PortRec) : (s.setPort p r).mainLink = s.mainLink := rfl
@[simp] theorem State.setPort_auxLink (p : Port) (r : PortRec) : (s.setPort p r).auxLink = s.auxLink := rfl
@[simp] theorem State.setPort_lastServed (p : Port) (r : PortRec) : (s.setPort p r).lastServed = s.lastServed := rfl
@[simp] theorem State.setPort_rights (p : Port) (r : PortRec) : (s.setPort p r).rights = s.rights := rfl
@[simp] theorem State.setPort_auxAddress (p : Port) (r : PortRec) : (s.setPort p r).auxAddress = s.auxAddress := rfl
@[simp] theorem State.setPort_spi (p : Port) (r : PortRec) : (s.setPort p r).spi = s.spi := rfl
@[simp] theorem State.setPort_i2c (p : Port) (r : PortRec) : (s.setPort p r).i2c = s.i2c := rfl
@[simp] theorem State.setPort_mainAlerts (p : Port) (r : PortRec) : (s.setPort p r).mainAlerts = s.mainAlerts := rfl
@[simp] theorem State.setPort_auxAlerts (p : Port) (r : PortRec) : (s.setPort p r).auxAlerts = s.auxAlerts := rfl

/-! ### modPort -/

@[simp] theorem State.modPort_pending (p : Port) (f : PortRec → PortRec) : (s.modPort p f).pending = s.pending := rfl
@[simp] theorem State.modPort_raised (p : Port) (f : PortRec → PortRec) : (s.modPort p f).raised = s.raised := rfl
@[simp] theorem State.modPort_patches (p : Port) (f : PortRec → PortRec) : (s.modPort p f).patches = s.patches := rfl
@[simp] theorem State.modPort_order (p : Port) (f : PortRec → PortRec) : (s.modPort p f).order = s.order := rfl
@[simp] theorem State.modPort_changes (p : Port) (f : PortRec → PortRec) : (s.modPort p f).changes = s.changes := rfl
@[simp] theorem State.modPort_inMap (p : Port) (f : PortRec → PortRec) : (s.modPort p f).inMap = s.inMap := rfl
@[simp] theorem State.modPort_outMap (p : Port) (f : PortRec → PortRec) : (s.modPort p f).outMap = s.outMap := rfl
@[simp] theorem State.modPort_tickets (p : Port) (f : PortRec → PortRec) : (s.modPort p f).tickets = s.tickets := rfl
@[simp] theorem State.modPort_pcLocked (p : Port) (f : PortRec → PortRec) : (s.modPort p f).pcLocked = s.pcLocked := rfl
@[simp] theorem State.modPort_sxLocked (p : Port) (f : PortRec → PortRec) : (s.modPort p f).sxLocked = s.sxLocked := rfl
@[simp] theorem State.modPort_mainLink (p : Port) (f : PortRec → PortRec) : (s.modPort p f).mainLink = s.mainLink := rfl
@[simp] theorem State.modPort_auxLink (p : Port) (f : PortRec → PortRec) : (s.modPort p f).auxLink = s.auxLink := rfl
@[simp] theorem State.modPort_lastServed (p : Port) (f : PortRec → PortRec) :
    (s.modPort p f).lastServed = s.lastServed := rfl
@[simp] theorem State.modPort_rights (p : Port) (f : PortRec → PortRec) : (s.modPort p f).rights = s.rights := rfl
@[simp] theorem State.modPort_auxAddress (p : Port) (f : PortRec → PortRec) :
    (s.modPort p f).auxAddress = s.auxAddress := rfl
@[simp] theorem State.modPort_spi (p : Port) (f : PortRec → PortRec) : (s.modPort p f).spi = s.spi := rfl
@[simp] theorem State.modPort_i2c (p : Port) (f : PortRec → PortRec) : (s.modPort p f).i2c = s.i2c := rfl
@[simp] theorem State.modPort_mainAlerts (p : Port) (f : PortRec → PortRec) :
    (s.modPort p f).mainAlerts = s.mainAlerts := rfl
@[simp] theorem State.modPort_auxAlerts (p : Port) (f : PortRec → PortRec) :
    (s.modPort p f).auxAlerts = s.auxAlerts := rfl

/-! ### setIn -/

@[simp] theorem State.setIn_pending (p : Port) (n : Slot) (e : Option InClaim) :
    (s.setIn p n e).pending = s.pending := rfl
@[simp] theorem State.setIn_raised (p : Port) (n : Slot) (e : Option InClaim) : (s.setIn p n e).raised = s.raised := rfl
@[simp] theorem State.setIn_patches (p : Port) (n : Slot) (e : Option InClaim) :
    (s.setIn p n e).patches = s.patches := rfl
@[simp] theorem State.setIn_order (p : Port) (n : Slot) (e : Option InClaim) : (s.setIn p n e).order = s.order := rfl
@[simp] theorem State.setIn_changes (p : Port) (n : Slot) (e : Option InClaim) :
    (s.setIn p n e).changes = s.changes := rfl
@[simp] theorem State.setIn_outMap (p : Port) (n : Slot) (e : Option InClaim) : (s.setIn p n e).outMap = s.outMap := rfl
@[simp] theorem State.setIn_tickets (p : Port) (n : Slot) (e : Option InClaim) :
    (s.setIn p n e).tickets = s.tickets := rfl
@[simp] theorem State.setIn_pcLocked (p : Port) (n : Slot) (e : Option InClaim) :
    (s.setIn p n e).pcLocked = s.pcLocked := rfl
@[simp] theorem State.setIn_sxLocked (p : Port) (n : Slot) (e : Option InClaim) :
    (s.setIn p n e).sxLocked = s.sxLocked := rfl
@[simp] theorem State.setIn_ports (p : Port) (n : Slot) (e : Option InClaim) : (s.setIn p n e).ports = s.ports := rfl
@[simp] theorem State.setIn_mainLink (p : Port) (n : Slot) (e : Option InClaim) :
    (s.setIn p n e).mainLink = s.mainLink := rfl
@[simp] theorem State.setIn_auxLink (p : Port) (n : Slot) (e : Option InClaim) :
    (s.setIn p n e).auxLink = s.auxLink := rfl
@[simp] theorem State.setIn_lastServed (p : Port) (n : Slot) (e : Option InClaim) :
    (s.setIn p n e).lastServed = s.lastServed := rfl
@[simp] theorem State.setIn_rights (p : Port) (n : Slot) (e : Option InClaim) : (s.setIn p n e).rights = s.rights := rfl
@[simp] theorem State.setIn_auxAddress (p : Port) (n : Slot) (e : Option InClaim) :
    (s.setIn p n e).auxAddress = s.auxAddress := rfl
@[simp] theorem State.setIn_spi (p : Port) (n : Slot) (e : Option InClaim) : (s.setIn p n e).spi = s.spi := rfl
@[simp] theorem State.setIn_i2c (p : Port) (n : Slot) (e : Option InClaim) : (s.setIn p n e).i2c = s.i2c := rfl
@[simp] theorem State.setIn_mainAlerts (p : Port) (n : Slot) (e : Option InClaim) :
    (s.setIn p n e).mainAlerts = s.mainAlerts := rfl
@[simp] theorem State.setIn_auxAlerts (p : Port) (n : Slot) (e : Option InClaim) :
    (s.setIn p n e).auxAlerts = s.auxAlerts := rfl

/-! ### setOut -/

@[simp] theorem State.setOut_pending (p : Port) (n : Slot) (e : OutEntry) : (s.setOut p n e).pending = s.pending := rfl
@[simp] theorem State.setOut_raised (p : Port) (n : Slot) (e : OutEntry) : (s.setOut p n e).raised = s.raised := rfl
@[simp] theorem State.setOut_patches (p : Port) (n : Slot) (e : OutEntry) : (s.setOut p n e).patches = s.patches := rfl
@[simp] theorem State.setOut_order (p : Port) (n : Slot) (e : OutEntry) : (s.setOut p n e).order = s.order := rfl
@[simp] theorem State.setOut_changes (p : Port) (n : Slot) (e : OutEntry) : (s.setOut p n e).changes = s.changes := rfl
@[simp] theorem State.setOut_inMap (p : Port) (n : Slot) (e : OutEntry) : (s.setOut p n e).inMap = s.inMap := rfl
@[simp] theorem State.setOut_tickets (p : Port) (n : Slot) (e : OutEntry) : (s.setOut p n e).tickets = s.tickets := rfl
@[simp] theorem State.setOut_pcLocked (p : Port) (n : Slot) (e : OutEntry) : (s.setOut p n e).pcLocked = s.pcLocked := rfl
@[simp] theorem State.setOut_sxLocked (p : Port) (n : Slot) (e : OutEntry) : (s.setOut p n e).sxLocked = s.sxLocked := rfl
@[simp] theorem State.setOut_ports (p : Port) (n : Slot) (e : OutEntry) : (s.setOut p n e).ports = s.ports := rfl
@[simp] theorem State.setOut_mainLink (p : Port) (n : Slot) (e : OutEntry) : (s.setOut p n e).mainLink = s.mainLink := rfl
@[simp] theorem State.setOut_auxLink (p : Port) (n : Slot) (e : OutEntry) : (s.setOut p n e).auxLink = s.auxLink := rfl
@[simp] theorem State.setOut_lastServed (p : Port) (n : Slot) (e : OutEntry) :
    (s.setOut p n e).lastServed = s.lastServed := rfl
@[simp] theorem State.setOut_rights (p : Port) (n : Slot) (e : OutEntry) : (s.setOut p n e).rights = s.rights := rfl
@[simp] theorem State.setOut_auxAddress (p : Port) (n : Slot) (e : OutEntry) :
    (s.setOut p n e).auxAddress = s.auxAddress := rfl
@[simp] theorem State.setOut_spi (p : Port) (n : Slot) (e : OutEntry) : (s.setOut p n e).spi = s.spi := rfl
@[simp] theorem State.setOut_i2c (p : Port) (n : Slot) (e : OutEntry) : (s.setOut p n e).i2c = s.i2c := rfl
@[simp] theorem State.setOut_mainAlerts (p : Port) (n : Slot) (e : OutEntry) :
    (s.setOut p n e).mainAlerts = s.mainAlerts := rfl
@[simp] theorem State.setOut_auxAlerts (p : Port) (n : Slot) (e : OutEntry) :
    (s.setOut p n e).auxAlerts = s.auxAlerts := rfl

/-! ### setPc -/

@[simp] theorem State.setPc_pending (p : Port) (b : Bool) : (s.setPc p b).pending = s.pending := rfl
@[simp] theorem State.setPc_raised (p : Port) (b : Bool) : (s.setPc p b).raised = s.raised := rfl
@[simp] theorem State.setPc_patches (p : Port) (b : Bool) : (s.setPc p b).patches = s.patches := rfl
@[simp] theorem State.setPc_order (p : Port) (b : Bool) : (s.setPc p b).order = s.order := rfl
@[simp] theorem State.setPc_changes (p : Port) (b : Bool) : (s.setPc p b).changes = s.changes := rfl
@[simp] theorem State.setPc_inMap (p : Port) (b : Bool) : (s.setPc p b).inMap = s.inMap := rfl
@[simp] theorem State.setPc_outMap (p : Port) (b : Bool) : (s.setPc p b).outMap = s.outMap := rfl
@[simp] theorem State.setPc_tickets (p : Port) (b : Bool) : (s.setPc p b).tickets = s.tickets := rfl
@[simp] theorem State.setPc_sxLocked (p : Port) (b : Bool) : (s.setPc p b).sxLocked = s.sxLocked := rfl
@[simp] theorem State.setPc_ports (p : Port) (b : Bool) : (s.setPc p b).ports = s.ports := rfl
@[simp] theorem State.setPc_mainLink (p : Port) (b : Bool) : (s.setPc p b).mainLink = s.mainLink := rfl
@[simp] theorem State.setPc_auxLink (p : Port) (b : Bool) : (s.setPc p b).auxLink = s.auxLink := rfl
@[simp] theorem State.setPc_lastServed (p : Port) (b : Bool) : (s.setPc p b).lastServed = s.lastServed := rfl
@[simp] theorem State.setPc_rights (p : Port) (b : Bool) : (s.setPc p b).rights = s.rights := rfl
@[simp] theorem State.setPc_auxAddress (p : Port) (b : Bool) : (s.setPc p b).auxAddress = s.auxAddress := rfl
@[simp] theorem State.setPc_spi (p : Port) (b : Bool) : (s.setPc p b).spi = s.spi := rfl
@[simp] theorem State.setPc_i2c (p : Port) (b : Bool) : (s.setPc p b).i2c = s.i2c := rfl
@[simp] theorem State.setPc_mainAlerts (p : Port) (b : Bool) : (s.setPc p b).mainAlerts = s.mainAlerts := rfl
@[simp] theorem State.setPc_auxAlerts (p : Port) (b : Bool) : (s.setPc p b).auxAlerts = s.auxAlerts := rfl

/-! ### setSx -/

@[simp] theorem State.setSx_pending (p : Port) (b : Bool) : (s.setSx p b).pending = s.pending := rfl
@[simp] theorem State.setSx_raised (p : Port) (b : Bool) : (s.setSx p b).raised = s.raised := rfl
@[simp] theorem State.setSx_patches (p : Port) (b : Bool) : (s.setSx p b).patches = s.patches := rfl
@[simp] theorem State.setSx_order (p : Port) (b : Bool) : (s.setSx p b).order = s.order := rfl
@[simp] theorem State.setSx_changes (p : Port) (b : Bool) : (s.setSx p b).changes = s.changes := rfl
@[simp] theorem State.setSx_inMap (p : Port) (b : Bool) : (s.setSx p b).inMap = s.inMap := rfl
@[simp] theorem State.setSx_outMap (p : Port) (b : Bool) : (s.setSx p b).outMap = s.outMap := rfl
@[simp] theorem State.setSx_tickets (p : Port) (b : Bool) : (s.setSx p b).tickets = s.tickets := rfl
@[simp] theorem State.setSx_pcLocked (p : Port) (b : Bool) : (s.setSx p b).pcLocked = s.pcLocked := rfl
@[simp] theorem State.setSx_ports (p : Port) (b : Bool) : (s.setSx p b).ports = s.ports := rfl
@[simp] theorem State.setSx_mainLink (p : Port) (b : Bool) : (s.setSx p b).mainLink = s.mainLink := rfl
@[simp] theorem State.setSx_auxLink (p : Port) (b : Bool) : (s.setSx p b).auxLink = s.auxLink := rfl
@[simp] theorem State.setSx_lastServed (p : Port) (b : Bool) : (s.setSx p b).lastServed = s.lastServed := rfl
@[simp] theorem State.setSx_rights (p : Port) (b : Bool) : (s.setSx p b).rights = s.rights := rfl
@[simp] theorem State.setSx_auxAddress (p : Port) (b : Bool) : (s.setSx p b).auxAddress = s.auxAddress := rfl
@[simp] theorem State.setSx_spi (p : Port) (b : Bool) : (s.setSx p b).spi = s.spi := rfl
@[simp] theorem State.setSx_i2c (p : Port) (b : Bool) : (s.setSx p b).i2c = s.i2c := rfl
@[simp] theorem State.setSx_mainAlerts (p : Port) (b : Bool) : (s.setSx p b).mainAlerts = s.mainAlerts := rfl
@[simp] theorem State.setSx_auxAlerts (p : Port) (b : Bool) : (s.setSx p b).auxAlerts = s.auxAlerts := rfl

/-! ### raise -/

@[simp] theorem State.raise_pending (e : Event) : (s.raise e).pending = s.pending := rfl
@[simp] theorem State.raise_patches (e : Event) : (s.raise e).patches = s.patches := rfl
@[simp] theorem State.raise_order (e : Event) : (s.raise e).order = s.order := rfl
@[simp] theorem State.raise_changes (e : Event) : (s.raise e).changes = s.changes := rfl
@[simp] theorem State.raise_inMap (e : Event) : (s.raise e).inMap = s.inMap := rfl
@[simp] theorem State.raise_outMap (e : Event) : (s.raise e).outMap = s.outMap := rfl
@[simp] theorem State.raise_tickets (e : Event) : (s.raise e).tickets = s.tickets := rfl
@[simp] theorem State.raise_pcLocked (e : Event) : (s.raise e).pcLocked = s.pcLocked := rfl
@[simp] theorem State.raise_sxLocked (e : Event) : (s.raise e).sxLocked = s.sxLocked := rfl
@[simp] theorem State.raise_ports (e : Event) : (s.raise e).ports = s.ports := rfl
@[simp] theorem State.raise_mainLink (e : Event) : (s.raise e).mainLink = s.mainLink := rfl
@[simp] theorem State.raise_auxLink (e : Event) : (s.raise e).auxLink = s.auxLink := rfl
@[simp] theorem State.raise_lastServed (e : Event) : (s.raise e).lastServed = s.lastServed := rfl
@[simp] theorem State.raise_rights (e : Event) : (s.raise e).rights = s.rights := rfl
@[simp] theorem State.raise_auxAddress (e : Event) : (s.raise e).auxAddress = s.auxAddress := rfl
@[simp] theorem State.raise_spi (e : Event) : (s.raise e).spi = s.spi := rfl
@[simp] theorem State.raise_i2c (e : Event) : (s.raise e).i2c = s.i2c := rfl
@[simp] theorem State.raise_mainAlerts (e : Event) : (s.raise e).mainAlerts = s.mainAlerts := rfl
@[simp] theorem State.raise_auxAlerts (e : Event) : (s.raise e).auxAlerts = s.auxAlerts := rfl

/-! ### consume -/

@[simp] theorem State.consume_pending (e : Event) : (s.consume e).pending = s.pending := rfl
@[simp] theorem State.consume_patches (e : Event) : (s.consume e).patches = s.patches := rfl
@[simp] theorem State.consume_order (e : Event) : (s.consume e).order = s.order := rfl
@[simp] theorem State.consume_changes (e : Event) : (s.consume e).changes = s.changes := rfl
@[simp] theorem State.consume_inMap (e : Event) : (s.consume e).inMap = s.inMap := rfl
@[simp] theorem State.consume_outMap (e : Event) : (s.consume e).outMap = s.outMap := rfl
@[simp] theorem State.consume_tickets (e : Event) : (s.consume e).tickets = s.tickets := rfl
@[simp] theorem State.consume_pcLocked (e : Event) : (s.consume e).pcLocked = s.pcLocked := rfl
@[simp] theorem State.consume_sxLocked (e : Event) : (s.consume e).sxLocked = s.sxLocked := rfl
@[simp] theorem State.consume_ports (e : Event) : (s.consume e).ports = s.ports := rfl
@[simp] theorem State.consume_mainLink (e : Event) : (s.consume e).mainLink = s.mainLink := rfl
@[simp] theorem State.consume_auxLink (e : Event) : (s.consume e).auxLink = s.auxLink := rfl
@[simp] theorem State.consume_lastServed (e : Event) : (s.consume e).lastServed = s.lastServed := rfl
@[simp] theorem State.consume_rights (e : Event) : (s.consume e).rights = s.rights := rfl
@[simp] theorem State.consume_auxAddress (e : Event) : (s.consume e).auxAddress = s.auxAddress := rfl
@[simp] theorem State.consume_spi (e : Event) : (s.consume e).spi = s.spi := rfl
@[simp] theorem State.consume_i2c (e : Event) : (s.consume e).i2c = s.i2c := rfl
@[simp] theorem State.consume_mainAlerts (e : Event) : (s.consume e).mainAlerts = s.mainAlerts := rfl
@[simp] theorem State.consume_auxAlerts (e : Event) : (s.consume e).auxAlerts = s.auxAlerts := rfl

/-! ### listAppend -/

@[simp] theorem State.listAppend_pending (n : PatchNo) : (s.listAppend n).pending = s.pending := rfl
@[simp] theorem State.listAppend_raised (n : PatchNo) : (s.listAppend n).raised = s.raised := rfl
@[simp] theorem State.listAppend_patches (n : PatchNo) : (s.listAppend n).patches = s.patches := rfl
@[simp] theorem State.listAppend_inMap (n : PatchNo) : (s.listAppend n).inMap = s.inMap := rfl
@[simp] theorem State.listAppend_outMap (n : PatchNo) : (s.listAppend n).outMap = s.outMap := rfl
@[simp] theorem State.listAppend_tickets (n : PatchNo) : (s.listAppend n).tickets = s.tickets := rfl
@[simp] theorem State.listAppend_pcLocked (n : PatchNo) : (s.listAppend n).pcLocked = s.pcLocked := rfl
@[simp] theorem State.listAppend_sxLocked (n : PatchNo) : (s.listAppend n).sxLocked = s.sxLocked := rfl
@[simp] theorem State.listAppend_ports (n : PatchNo) : (s.listAppend n).ports = s.ports := rfl
@[simp] theorem State.listAppend_mainLink (n : PatchNo) : (s.listAppend n).mainLink = s.mainLink := rfl
@[simp] theorem State.listAppend_auxLink (n : PatchNo) : (s.listAppend n).auxLink = s.auxLink := rfl
@[simp] theorem State.listAppend_lastServed (n : PatchNo) : (s.listAppend n).lastServed = s.lastServed := rfl
@[simp] theorem State.listAppend_rights (n : PatchNo) : (s.listAppend n).rights = s.rights := rfl
@[simp] theorem State.listAppend_auxAddress (n : PatchNo) : (s.listAppend n).auxAddress = s.auxAddress := rfl
@[simp] theorem State.listAppend_spi (n : PatchNo) : (s.listAppend n).spi = s.spi := rfl
@[simp] theorem State.listAppend_i2c (n : PatchNo) : (s.listAppend n).i2c = s.i2c := rfl
@[simp] theorem State.listAppend_mainAlerts (n : PatchNo) : (s.listAppend n).mainAlerts = s.mainAlerts := rfl
@[simp] theorem State.listAppend_auxAlerts (n : PatchNo) : (s.listAppend n).auxAlerts = s.auxAlerts := rfl

/-! ### dropIn -/

@[simp] theorem State.dropIn_pending (gone : InClaim → Bool) : (s.dropIn gone).pending = s.pending := rfl
@[simp] theorem State.dropIn_raised (gone : InClaim → Bool) : (s.dropIn gone).raised = s.raised := rfl
@[simp] theorem State.dropIn_patches (gone : InClaim → Bool) : (s.dropIn gone).patches = s.patches := rfl
@[simp] theorem State.dropIn_order (gone : InClaim → Bool) : (s.dropIn gone).order = s.order := rfl
@[simp] theorem State.dropIn_changes (gone : InClaim → Bool) : (s.dropIn gone).changes = s.changes := rfl
@[simp] theorem State.dropIn_outMap (gone : InClaim → Bool) : (s.dropIn gone).outMap = s.outMap := rfl
@[simp] theorem State.dropIn_tickets (gone : InClaim → Bool) : (s.dropIn gone).tickets = s.tickets := rfl
@[simp] theorem State.dropIn_pcLocked (gone : InClaim → Bool) : (s.dropIn gone).pcLocked = s.pcLocked := rfl
@[simp] theorem State.dropIn_sxLocked (gone : InClaim → Bool) : (s.dropIn gone).sxLocked = s.sxLocked := rfl
@[simp] theorem State.dropIn_ports (gone : InClaim → Bool) : (s.dropIn gone).ports = s.ports := rfl
@[simp] theorem State.dropIn_mainLink (gone : InClaim → Bool) : (s.dropIn gone).mainLink = s.mainLink := rfl
@[simp] theorem State.dropIn_auxLink (gone : InClaim → Bool) : (s.dropIn gone).auxLink = s.auxLink := rfl
@[simp] theorem State.dropIn_lastServed (gone : InClaim → Bool) : (s.dropIn gone).lastServed = s.lastServed := rfl
@[simp] theorem State.dropIn_rights (gone : InClaim → Bool) : (s.dropIn gone).rights = s.rights := rfl
@[simp] theorem State.dropIn_auxAddress (gone : InClaim → Bool) : (s.dropIn gone).auxAddress = s.auxAddress := rfl
@[simp] theorem State.dropIn_spi (gone : InClaim → Bool) : (s.dropIn gone).spi = s.spi := rfl
@[simp] theorem State.dropIn_i2c (gone : InClaim → Bool) : (s.dropIn gone).i2c = s.i2c := rfl
@[simp] theorem State.dropIn_mainAlerts (gone : InClaim → Bool) : (s.dropIn gone).mainAlerts = s.mainAlerts := rfl
@[simp] theorem State.dropIn_auxAlerts (gone : InClaim → Bool) : (s.dropIn gone).auxAlerts = s.auxAlerts := rfl

/-! ### dropOut -/

@[simp] theorem State.dropOut_pending (a : Port → OutHolder → Bool) (b : Port → OutResv → Bool) :
    (s.dropOut a b).pending = s.pending := rfl
@[simp] theorem State.dropOut_raised (a : Port → OutHolder → Bool) (b : Port → OutResv → Bool) :
    (s.dropOut a b).raised = s.raised := rfl
@[simp] theorem State.dropOut_patches (a : Port → OutHolder → Bool) (b : Port → OutResv → Bool) :
    (s.dropOut a b).patches = s.patches := rfl
@[simp] theorem State.dropOut_order (a : Port → OutHolder → Bool) (b : Port → OutResv → Bool) :
    (s.dropOut a b).order = s.order := rfl
@[simp] theorem State.dropOut_changes (a : Port → OutHolder → Bool) (b : Port → OutResv → Bool) :
    (s.dropOut a b).changes = s.changes := rfl
@[simp] theorem State.dropOut_inMap (a : Port → OutHolder → Bool) (b : Port → OutResv → Bool) :
    (s.dropOut a b).inMap = s.inMap := rfl
@[simp] theorem State.dropOut_tickets (a : Port → OutHolder → Bool) (b : Port → OutResv → Bool) :
    (s.dropOut a b).tickets = s.tickets := rfl
@[simp] theorem State.dropOut_pcLocked (a : Port → OutHolder → Bool) (b : Port → OutResv → Bool) :
    (s.dropOut a b).pcLocked = s.pcLocked := rfl
@[simp] theorem State.dropOut_sxLocked (a : Port → OutHolder → Bool) (b : Port → OutResv → Bool) :
    (s.dropOut a b).sxLocked = s.sxLocked := rfl
@[simp] theorem State.dropOut_ports (a : Port → OutHolder → Bool) (b : Port → OutResv → Bool) :
    (s.dropOut a b).ports = s.ports := rfl
@[simp] theorem State.dropOut_mainLink (a : Port → OutHolder → Bool) (b : Port → OutResv → Bool) :
    (s.dropOut a b).mainLink = s.mainLink := rfl
@[simp] theorem State.dropOut_auxLink (a : Port → OutHolder → Bool) (b : Port → OutResv → Bool) :
    (s.dropOut a b).auxLink = s.auxLink := rfl
@[simp] theorem State.dropOut_lastServed (a : Port → OutHolder → Bool) (b : Port → OutResv → Bool) :
    (s.dropOut a b).lastServed = s.lastServed := rfl
@[simp] theorem State.dropOut_rights (a : Port → OutHolder → Bool) (b : Port → OutResv → Bool) :
    (s.dropOut a b).rights = s.rights := rfl
@[simp] theorem State.dropOut_auxAddress (a : Port → OutHolder → Bool) (b : Port → OutResv → Bool) :
    (s.dropOut a b).auxAddress = s.auxAddress := rfl
@[simp] theorem State.dropOut_spi (a : Port → OutHolder → Bool) (b : Port → OutResv → Bool) :
    (s.dropOut a b).spi = s.spi := rfl
@[simp] theorem State.dropOut_i2c (a : Port → OutHolder → Bool) (b : Port → OutResv → Bool) :
    (s.dropOut a b).i2c = s.i2c := rfl
@[simp] theorem State.dropOut_mainAlerts (a : Port → OutHolder → Bool) (b : Port → OutResv → Bool) :
    (s.dropOut a b).mainAlerts = s.mainAlerts := rfl
@[simp] theorem State.dropOut_auxAlerts (a : Port → OutHolder → Bool) (b : Port → OutResv → Bool) :
    (s.dropOut a b).auxAlerts = s.auxAlerts := rfl

/-! ### dropHolders -/

@[simp] theorem State.dropHolders_pending (n : PatchNo) (nm : DestName) : (s.dropHolders n nm).pending = s.pending := rfl
@[simp] theorem State.dropHolders_raised (n : PatchNo) (nm : DestName) : (s.dropHolders n nm).raised = s.raised := rfl
@[simp] theorem State.dropHolders_patches (n : PatchNo) (nm : DestName) : (s.dropHolders n nm).patches = s.patches := rfl
@[simp] theorem State.dropHolders_order (n : PatchNo) (nm : DestName) : (s.dropHolders n nm).order = s.order := rfl
@[simp] theorem State.dropHolders_changes (n : PatchNo) (nm : DestName) : (s.dropHolders n nm).changes = s.changes := rfl
@[simp] theorem State.dropHolders_inMap (n : PatchNo) (nm : DestName) : (s.dropHolders n nm).inMap = s.inMap := rfl
@[simp] theorem State.dropHolders_tickets (n : PatchNo) (nm : DestName) : (s.dropHolders n nm).tickets = s.tickets := rfl
@[simp] theorem State.dropHolders_pcLocked (n : PatchNo) (nm : DestName) :
    (s.dropHolders n nm).pcLocked = s.pcLocked := rfl
@[simp] theorem State.dropHolders_sxLocked (n : PatchNo) (nm : DestName) :
    (s.dropHolders n nm).sxLocked = s.sxLocked := rfl
@[simp] theorem State.dropHolders_ports (n : PatchNo) (nm : DestName) : (s.dropHolders n nm).ports = s.ports := rfl
@[simp] theorem State.dropHolders_mainLink (n : PatchNo) (nm : DestName) :
    (s.dropHolders n nm).mainLink = s.mainLink := rfl
@[simp] theorem State.dropHolders_auxLink (n : PatchNo) (nm : DestName) : (s.dropHolders n nm).auxLink = s.auxLink := rfl
@[simp] theorem State.dropHolders_lastServed (n : PatchNo) (nm : DestName) :
    (s.dropHolders n nm).lastServed = s.lastServed := rfl
@[simp] theorem State.dropHolders_rights (n : PatchNo) (nm : DestName) : (s.dropHolders n nm).rights = s.rights := rfl
@[simp] theorem State.dropHolders_auxAddress (n : PatchNo) (nm : DestName) :
    (s.dropHolders n nm).auxAddress = s.auxAddress := rfl
@[simp] theorem State.dropHolders_spi (n : PatchNo) (nm : DestName) : (s.dropHolders n nm).spi = s.spi := rfl
@[simp] theorem State.dropHolders_i2c (n : PatchNo) (nm : DestName) : (s.dropHolders n nm).i2c = s.i2c := rfl
@[simp] theorem State.dropHolders_mainAlerts (n : PatchNo) (nm : DestName) :
    (s.dropHolders n nm).mainAlerts = s.mainAlerts := rfl
@[simp] theorem State.dropHolders_auxAlerts (n : PatchNo) (nm : DestName) :
    (s.dropHolders n nm).auxAlerts = s.auxAlerts := rfl

/-! ### dropReservations -/

@[simp] theorem State.dropReservations_pending (n : PatchNo) : (s.dropReservations n).pending = s.pending := rfl
@[simp] theorem State.dropReservations_raised (n : PatchNo) : (s.dropReservations n).raised = s.raised := rfl
@[simp] theorem State.dropReservations_patches (n : PatchNo) : (s.dropReservations n).patches = s.patches := rfl
@[simp] theorem State.dropReservations_order (n : PatchNo) : (s.dropReservations n).order = s.order := rfl
@[simp] theorem State.dropReservations_changes (n : PatchNo) : (s.dropReservations n).changes = s.changes := rfl
@[simp] theorem State.dropReservations_tickets (n : PatchNo) : (s.dropReservations n).tickets = s.tickets := rfl
@[simp] theorem State.dropReservations_pcLocked (n : PatchNo) : (s.dropReservations n).pcLocked = s.pcLocked := rfl
@[simp] theorem State.dropReservations_sxLocked (n : PatchNo) : (s.dropReservations n).sxLocked = s.sxLocked := rfl
@[simp] theorem State.dropReservations_ports (n : PatchNo) : (s.dropReservations n).ports = s.ports := rfl
@[simp] theorem State.dropReservations_mainLink (n : PatchNo) : (s.dropReservations n).mainLink = s.mainLink := rfl
@[simp] theorem State.dropReservations_auxLink (n : PatchNo) : (s.dropReservations n).auxLink = s.auxLink := rfl
@[simp] theorem State.dropReservations_lastServed (n : PatchNo) : (s.dropReservations n).lastServed = s.lastServed := rfl
@[simp] theorem State.dropReservations_rights (n : PatchNo) : (s.dropReservations n).rights = s.rights := rfl
@[simp] theorem State.dropReservations_auxAddress (n : PatchNo) : (s.dropReservations n).auxAddress = s.auxAddress := rfl
@[simp] theorem State.dropReservations_spi (n : PatchNo) : (s.dropReservations n).spi = s.spi := rfl
@[simp] theorem State.dropReservations_i2c (n : PatchNo) : (s.dropReservations n).i2c = s.i2c := rfl
@[simp] theorem State.dropReservations_mainAlerts (n : PatchNo) : (s.dropReservations n).mainAlerts = s.mainAlerts := rfl
@[simp] theorem State.dropReservations_auxAlerts (n : PatchNo) : (s.dropReservations n).auxAlerts = s.auxAlerts := rfl

/-! ### clearLatch -/

@[simp] theorem State.clearLatch_pending (n : PatchNo) : (s.clearLatch n).pending = s.pending := rfl
@[simp] theorem State.clearLatch_raised (n : PatchNo) : (s.clearLatch n).raised = s.raised := rfl
@[simp] theorem State.clearLatch_patches (n : PatchNo) : (s.clearLatch n).patches = s.patches := rfl
@[simp] theorem State.clearLatch_order (n : PatchNo) : (s.clearLatch n).order = s.order := rfl
@[simp] theorem State.clearLatch_changes (n : PatchNo) : (s.clearLatch n).changes = s.changes := rfl
@[simp] theorem State.clearLatch_inMap (n : PatchNo) : (s.clearLatch n).inMap = s.inMap := rfl
@[simp] theorem State.clearLatch_outMap (n : PatchNo) : (s.clearLatch n).outMap = s.outMap := rfl
@[simp] theorem State.clearLatch_tickets (n : PatchNo) : (s.clearLatch n).tickets = s.tickets := rfl
@[simp] theorem State.clearLatch_pcLocked (n : PatchNo) : (s.clearLatch n).pcLocked = s.pcLocked := rfl
@[simp] theorem State.clearLatch_sxLocked (n : PatchNo) : (s.clearLatch n).sxLocked = s.sxLocked := rfl
@[simp] theorem State.clearLatch_mainLink (n : PatchNo) : (s.clearLatch n).mainLink = s.mainLink := rfl
@[simp] theorem State.clearLatch_auxLink (n : PatchNo) : (s.clearLatch n).auxLink = s.auxLink := rfl
@[simp] theorem State.clearLatch_lastServed (n : PatchNo) : (s.clearLatch n).lastServed = s.lastServed := rfl
@[simp] theorem State.clearLatch_rights (n : PatchNo) : (s.clearLatch n).rights = s.rights := rfl
@[simp] theorem State.clearLatch_auxAddress (n : PatchNo) : (s.clearLatch n).auxAddress = s.auxAddress := rfl
@[simp] theorem State.clearLatch_spi (n : PatchNo) : (s.clearLatch n).spi = s.spi := rfl
@[simp] theorem State.clearLatch_i2c (n : PatchNo) : (s.clearLatch n).i2c = s.i2c := rfl
@[simp] theorem State.clearLatch_mainAlerts (n : PatchNo) : (s.clearLatch n).mainAlerts = s.mainAlerts := rfl
@[simp] theorem State.clearLatch_auxAlerts (n : PatchNo) : (s.clearLatch n).auxAlerts = s.auxAlerts := rfl

/-! ### dropDonor -/

@[simp] theorem State.dropDonor_pending (n : PatchNo) : (s.dropDonor n).pending = s.pending := rfl
@[simp] theorem State.dropDonor_raised (n : PatchNo) : (s.dropDonor n).raised = s.raised := rfl
@[simp] theorem State.dropDonor_patches (n : PatchNo) : (s.dropDonor n).patches = s.patches := rfl
@[simp] theorem State.dropDonor_order (n : PatchNo) : (s.dropDonor n).order = s.order := rfl
@[simp] theorem State.dropDonor_changes (n : PatchNo) : (s.dropDonor n).changes = s.changes := rfl
@[simp] theorem State.dropDonor_inMap (n : PatchNo) : (s.dropDonor n).inMap = s.inMap := rfl
@[simp] theorem State.dropDonor_outMap (n : PatchNo) : (s.dropDonor n).outMap = s.outMap := rfl
@[simp] theorem State.dropDonor_pcLocked (n : PatchNo) : (s.dropDonor n).pcLocked = s.pcLocked := rfl
@[simp] theorem State.dropDonor_sxLocked (n : PatchNo) : (s.dropDonor n).sxLocked = s.sxLocked := rfl
@[simp] theorem State.dropDonor_ports (n : PatchNo) : (s.dropDonor n).ports = s.ports := rfl
@[simp] theorem State.dropDonor_mainLink (n : PatchNo) : (s.dropDonor n).mainLink = s.mainLink := rfl
@[simp] theorem State.dropDonor_auxLink (n : PatchNo) : (s.dropDonor n).auxLink = s.auxLink := rfl
@[simp] theorem State.dropDonor_lastServed (n : PatchNo) : (s.dropDonor n).lastServed = s.lastServed := rfl
@[simp] theorem State.dropDonor_rights (n : PatchNo) : (s.dropDonor n).rights = s.rights := rfl
@[simp] theorem State.dropDonor_auxAddress (n : PatchNo) : (s.dropDonor n).auxAddress = s.auxAddress := rfl
@[simp] theorem State.dropDonor_spi (n : PatchNo) : (s.dropDonor n).spi = s.spi := rfl
@[simp] theorem State.dropDonor_i2c (n : PatchNo) : (s.dropDonor n).i2c = s.i2c := rfl
@[simp] theorem State.dropDonor_mainAlerts (n : PatchNo) : (s.dropDonor n).mainAlerts = s.mainAlerts := rfl
@[simp] theorem State.dropDonor_auxAlerts (n : PatchNo) : (s.dropDonor n).auxAlerts = s.auxAlerts := rfl

/-! ### setLink -/

@[simp] theorem State.setLink_pending (l : Link) (r : LinkRec) : (s.setLink l r).pending = s.pending := by cases l <;> rfl
@[simp] theorem State.setLink_raised (l : Link) (r : LinkRec) : (s.setLink l r).raised = s.raised := by cases l <;> rfl
@[simp] theorem State.setLink_patches (l : Link) (r : LinkRec) : (s.setLink l r).patches = s.patches := by cases l <;> rfl
@[simp] theorem State.setLink_order (l : Link) (r : LinkRec) : (s.setLink l r).order = s.order := by cases l <;> rfl
@[simp] theorem State.setLink_changes (l : Link) (r : LinkRec) : (s.setLink l r).changes = s.changes := by cases l <;> rfl
@[simp] theorem State.setLink_inMap (l : Link) (r : LinkRec) : (s.setLink l r).inMap = s.inMap := by cases l <;> rfl
@[simp] theorem State.setLink_outMap (l : Link) (r : LinkRec) : (s.setLink l r).outMap = s.outMap := by cases l <;> rfl
@[simp] theorem State.setLink_tickets (l : Link) (r : LinkRec) : (s.setLink l r).tickets = s.tickets := by cases l <;> rfl
@[simp] theorem State.setLink_pcLocked (l : Link) (r : LinkRec) :
    (s.setLink l r).pcLocked = s.pcLocked := by cases l <;> rfl
@[simp] theorem State.setLink_sxLocked (l : Link) (r : LinkRec) :
    (s.setLink l r).sxLocked = s.sxLocked := by cases l <;> rfl
@[simp] theorem State.setLink_ports (l : Link) (r : LinkRec) : (s.setLink l r).ports = s.ports := by cases l <;> rfl
@[simp] theorem State.setLink_lastServed (l : Link) (r : LinkRec) :
    (s.setLink l r).lastServed = s.lastServed := by cases l <;> rfl
@[simp] theorem State.setLink_rights (l : Link) (r : LinkRec) : (s.setLink l r).rights = s.rights := by cases l <;> rfl
@[simp] theorem State.setLink_auxAddress (l : Link) (r : LinkRec) :
    (s.setLink l r).auxAddress = s.auxAddress := by cases l <;> rfl
@[simp] theorem State.setLink_spi (l : Link) (r : LinkRec) : (s.setLink l r).spi = s.spi := by cases l <;> rfl
@[simp] theorem State.setLink_i2c (l : Link) (r : LinkRec) : (s.setLink l r).i2c = s.i2c := by cases l <;> rfl
@[simp] theorem State.setLink_mainAlerts (l : Link) (r : LinkRec) :
    (s.setLink l r).mainAlerts = s.mainAlerts := by cases l <;> rfl
@[simp] theorem State.setLink_auxAlerts (l : Link) (r : LinkRec) :
    (s.setLink l r).auxAlerts = s.auxAlerts := by cases l <;> rfl

/-! ### setAlerts -/

@[simp] theorem State.setAlerts_pending (l : Link) (r : Alerts) :
    (s.setAlerts l r).pending = s.pending := by cases l <;> rfl
@[simp] theorem State.setAlerts_raised (l : Link) (r : Alerts) : (s.setAlerts l r).raised = s.raised := by cases l <;> rfl
@[simp] theorem State.setAlerts_patches (l : Link) (r : Alerts) :
    (s.setAlerts l r).patches = s.patches := by cases l <;> rfl
@[simp] theorem State.setAlerts_order (l : Link) (r : Alerts) : (s.setAlerts l r).order = s.order := by cases l <;> rfl
@[simp] theorem State.setAlerts_changes (l : Link) (r : Alerts) :
    (s.setAlerts l r).changes = s.changes := by cases l <;> rfl
@[simp] theorem State.setAlerts_inMap (l : Link) (r : Alerts) : (s.setAlerts l r).inMap = s.inMap := by cases l <;> rfl
@[simp] theorem State.setAlerts_outMap (l : Link) (r : Alerts) : (s.setAlerts l r).outMap = s.outMap := by cases l <;> rfl
@[simp] theorem State.setAlerts_tickets (l : Link) (r : Alerts) :
    (s.setAlerts l r).tickets = s.tickets := by cases l <;> rfl
@[simp] theorem State.setAlerts_pcLocked (l : Link) (r : Alerts) :
    (s.setAlerts l r).pcLocked = s.pcLocked := by cases l <;> rfl
@[simp] theorem State.setAlerts_sxLocked (l : Link) (r : Alerts) :
    (s.setAlerts l r).sxLocked = s.sxLocked := by cases l <;> rfl
@[simp] theorem State.setAlerts_ports (l : Link) (r : Alerts) : (s.setAlerts l r).ports = s.ports := by cases l <;> rfl
@[simp] theorem State.setAlerts_mainLink (l : Link) (r : Alerts) :
    (s.setAlerts l r).mainLink = s.mainLink := by cases l <;> rfl
@[simp] theorem State.setAlerts_auxLink (l : Link) (r : Alerts) :
    (s.setAlerts l r).auxLink = s.auxLink := by cases l <;> rfl
@[simp] theorem State.setAlerts_lastServed (l : Link) (r : Alerts) :
    (s.setAlerts l r).lastServed = s.lastServed := by cases l <;> rfl
@[simp] theorem State.setAlerts_rights (l : Link) (r : Alerts) : (s.setAlerts l r).rights = s.rights := by cases l <;> rfl
@[simp] theorem State.setAlerts_auxAddress (l : Link) (r : Alerts) :
    (s.setAlerts l r).auxAddress = s.auxAddress := by cases l <;> rfl
@[simp] theorem State.setAlerts_spi (l : Link) (r : Alerts) : (s.setAlerts l r).spi = s.spi := by cases l <;> rfl
@[simp] theorem State.setAlerts_i2c (l : Link) (r : Alerts) : (s.setAlerts l r).i2c = s.i2c := by cases l <;> rfl

/-! ### modLink -/

@[simp] theorem State.modLink_pending (l : Link) (f : LinkRec → LinkRec) :
    (s.modLink l f).pending = s.pending := by cases l <;> rfl
@[simp] theorem State.modLink_raised (l : Link) (f : LinkRec → LinkRec) :
    (s.modLink l f).raised = s.raised := by cases l <;> rfl
@[simp] theorem State.modLink_patches (l : Link) (f : LinkRec → LinkRec) :
    (s.modLink l f).patches = s.patches := by cases l <;> rfl
@[simp] theorem State.modLink_order (l : Link) (f : LinkRec → LinkRec) :
    (s.modLink l f).order = s.order := by cases l <;> rfl
@[simp] theorem State.modLink_changes (l : Link) (f : LinkRec → LinkRec) :
    (s.modLink l f).changes = s.changes := by cases l <;> rfl
@[simp] theorem State.modLink_inMap (l : Link) (f : LinkRec → LinkRec) :
    (s.modLink l f).inMap = s.inMap := by cases l <;> rfl
@[simp] theorem State.modLink_outMap (l : Link) (f : LinkRec → LinkRec) :
    (s.modLink l f).outMap = s.outMap := by cases l <;> rfl
@[simp] theorem State.modLink_tickets (l : Link) (f : LinkRec → LinkRec) :
    (s.modLink l f).tickets = s.tickets := by cases l <;> rfl
@[simp] theorem State.modLink_pcLocked (l : Link) (f : LinkRec → LinkRec) :
    (s.modLink l f).pcLocked = s.pcLocked := by cases l <;> rfl
@[simp] theorem State.modLink_sxLocked (l : Link) (f : LinkRec → LinkRec) :
    (s.modLink l f).sxLocked = s.sxLocked := by cases l <;> rfl
@[simp] theorem State.modLink_ports (l : Link) (f : LinkRec → LinkRec) :
    (s.modLink l f).ports = s.ports := by cases l <;> rfl
@[simp] theorem State.modLink_lastServed (l : Link) (f : LinkRec → LinkRec) :
    (s.modLink l f).lastServed = s.lastServed := by cases l <;> rfl
@[simp] theorem State.modLink_rights (l : Link) (f : LinkRec → LinkRec) :
    (s.modLink l f).rights = s.rights := by cases l <;> rfl
@[simp] theorem State.modLink_auxAddress (l : Link) (f : LinkRec → LinkRec) :
    (s.modLink l f).auxAddress = s.auxAddress := by cases l <;> rfl
@[simp] theorem State.modLink_spi (l : Link) (f : LinkRec → LinkRec) : (s.modLink l f).spi = s.spi := by cases l <;> rfl
@[simp] theorem State.modLink_i2c (l : Link) (f : LinkRec → LinkRec) : (s.modLink l f).i2c = s.i2c := by cases l <;> rfl
@[simp] theorem State.modLink_mainAlerts (l : Link) (f : LinkRec → LinkRec) :
    (s.modLink l f).mainAlerts = s.mainAlerts := by cases l <;> rfl
@[simp] theorem State.modLink_auxAlerts (l : Link) (f : LinkRec → LinkRec) :
    (s.modLink l f).auxAlerts = s.auxAlerts := by cases l <;> rfl

/-! ### the accessors of other tables -/

@[simp] theorem State.ticket_setPatch (n : PatchNo) (r : Patch) (u : TicketNo) :
    (s.setPatch n r).ticket u = s.ticket u := rfl
@[simp] theorem State.port_setPatch (n : PatchNo) (r : Patch) (o : Port) : (s.setPatch n r).port o = s.port o := rfl
@[simp] theorem State.inEntry_setPatch (n : PatchNo) (r : Patch) (o : Port) (q : Slot) :
    (s.setPatch n r).inEntry o q = s.inEntry o q := rfl
@[simp] theorem State.outEntry_setPatch (n : PatchNo) (r : Patch) (o : Port) (q : Slot) :
    (s.setPatch n r).outEntry o q = s.outEntry o q := rfl
@[simp] theorem State.pcHolds_setPatch (n : PatchNo) (r : Patch) (o : Port) :
    (s.setPatch n r).pcHolds o = s.pcHolds o := rfl
@[simp] theorem State.sxHolds_setPatch (n : PatchNo) (r : Patch) (o : Port) :
    (s.setPatch n r).sxHolds o = s.sxHolds o := rfl
@[simp] theorem State.link_setPatch (n : PatchNo) (r : Patch) (l : Link) :
    (s.setPatch n r).link l = s.link l := by cases l <;> rfl
@[simp] theorem State.alerts_setPatch (n : PatchNo) (r : Patch) (l : Link) :
    (s.setPatch n r).alerts l = s.alerts l := by cases l <;> rfl
@[simp] theorem State.ticket_modPatch (n : PatchNo) (f : Patch → Patch) (u : TicketNo) :
    (s.modPatch n f).ticket u = s.ticket u := rfl
@[simp] theorem State.port_modPatch (n : PatchNo) (f : Patch → Patch) (o : Port) :
    (s.modPatch n f).port o = s.port o := rfl
@[simp] theorem State.inEntry_modPatch (n : PatchNo) (f : Patch → Patch) (o : Port) (q : Slot) :
    (s.modPatch n f).inEntry o q = s.inEntry o q := rfl
@[simp] theorem State.outEntry_modPatch (n : PatchNo) (f : Patch → Patch) (o : Port) (q : Slot) :
    (s.modPatch n f).outEntry o q = s.outEntry o q := rfl
@[simp] theorem State.pcHolds_modPatch (n : PatchNo) (f : Patch → Patch) (o : Port) :
    (s.modPatch n f).pcHolds o = s.pcHolds o := rfl
@[simp] theorem State.sxHolds_modPatch (n : PatchNo) (f : Patch → Patch) (o : Port) :
    (s.modPatch n f).sxHolds o = s.sxHolds o := rfl
@[simp] theorem State.link_modPatch (n : PatchNo) (f : Patch → Patch) (l : Link) :
    (s.modPatch n f).link l = s.link l := by cases l <;> rfl
@[simp] theorem State.alerts_modPatch (n : PatchNo) (f : Patch → Patch) (l : Link) :
    (s.modPatch n f).alerts l = s.alerts l := by cases l <;> rfl
@[simp] theorem State.ticket_mapPatches (f : Patch → Patch) (u : TicketNo) : (s.mapPatches f).ticket u = s.ticket u := rfl
@[simp] theorem State.port_mapPatches (f : Patch → Patch) (o : Port) : (s.mapPatches f).port o = s.port o := rfl
@[simp] theorem State.inEntry_mapPatches (f : Patch → Patch) (o : Port) (q : Slot) :
    (s.mapPatches f).inEntry o q = s.inEntry o q := rfl
@[simp] theorem State.outEntry_mapPatches (f : Patch → Patch) (o : Port) (q : Slot) :
    (s.mapPatches f).outEntry o q = s.outEntry o q := rfl
@[simp] theorem State.pcHolds_mapPatches (f : Patch → Patch) (o : Port) : (s.mapPatches f).pcHolds o = s.pcHolds o := rfl
@[simp] theorem State.sxHolds_mapPatches (f : Patch → Patch) (o : Port) : (s.mapPatches f).sxHolds o = s.sxHolds o := rfl
@[simp] theorem State.link_mapPatches (f : Patch → Patch) (l : Link) :
    (s.mapPatches f).link l = s.link l := by cases l <;> rfl
@[simp] theorem State.alerts_mapPatches (f : Patch → Patch) (l : Link) :
    (s.mapPatches f).alerts l = s.alerts l := by cases l <;> rfl
@[simp] theorem State.patch_setTicket (t : TicketNo) (k : Ticket) (m : PatchNo) :
    (s.setTicket t k).patch m = s.patch m := rfl
@[simp] theorem State.port_setTicket (t : TicketNo) (k : Ticket) (o : Port) : (s.setTicket t k).port o = s.port o := rfl
@[simp] theorem State.inEntry_setTicket (t : TicketNo) (k : Ticket) (o : Port) (q : Slot) :
    (s.setTicket t k).inEntry o q = s.inEntry o q := rfl
@[simp] theorem State.outEntry_setTicket (t : TicketNo) (k : Ticket) (o : Port) (q : Slot) :
    (s.setTicket t k).outEntry o q = s.outEntry o q := rfl
@[simp] theorem State.pcHolds_setTicket (t : TicketNo) (k : Ticket) (o : Port) :
    (s.setTicket t k).pcHolds o = s.pcHolds o := rfl
@[simp] theorem State.sxHolds_setTicket (t : TicketNo) (k : Ticket) (o : Port) :
    (s.setTicket t k).sxHolds o = s.sxHolds o := rfl
@[simp] theorem State.link_setTicket (t : TicketNo) (k : Ticket) (l : Link) :
    (s.setTicket t k).link l = s.link l := by cases l <;> rfl
@[simp] theorem State.alerts_setTicket (t : TicketNo) (k : Ticket) (l : Link) :
    (s.setTicket t k).alerts l = s.alerts l := by cases l <;> rfl
@[simp] theorem State.patch_setPort (p : Port) (r : PortRec) (m : PatchNo) : (s.setPort p r).patch m = s.patch m := rfl
@[simp] theorem State.ticket_setPort (p : Port) (r : PortRec) (u : TicketNo) :
    (s.setPort p r).ticket u = s.ticket u := rfl
@[simp] theorem State.inEntry_setPort (p : Port) (r : PortRec) (o : Port) (q : Slot) :
    (s.setPort p r).inEntry o q = s.inEntry o q := rfl
@[simp] theorem State.outEntry_setPort (p : Port) (r : PortRec) (o : Port) (q : Slot) :
    (s.setPort p r).outEntry o q = s.outEntry o q := rfl
@[simp] theorem State.pcHolds_setPort (p : Port) (r : PortRec) (o : Port) : (s.setPort p r).pcHolds o = s.pcHolds o := rfl
@[simp] theorem State.sxHolds_setPort (p : Port) (r : PortRec) (o : Port) : (s.setPort p r).sxHolds o = s.sxHolds o := rfl
@[simp] theorem State.link_setPort (p : Port) (r : PortRec) (l : Link) :
    (s.setPort p r).link l = s.link l := by cases l <;> rfl
@[simp] theorem State.alerts_setPort (p : Port) (r : PortRec) (l : Link) :
    (s.setPort p r).alerts l = s.alerts l := by cases l <;> rfl
@[simp] theorem State.patch_modPort (p : Port) (f : PortRec → PortRec) (m : PatchNo) :
    (s.modPort p f).patch m = s.patch m := rfl
@[simp] theorem State.ticket_modPort (p : Port) (f : PortRec → PortRec) (u : TicketNo) :
    (s.modPort p f).ticket u = s.ticket u := rfl
@[simp] theorem State.inEntry_modPort (p : Port) (f : PortRec → PortRec) (o : Port) (q : Slot) :
    (s.modPort p f).inEntry o q = s.inEntry o q := rfl
@[simp] theorem State.outEntry_modPort (p : Port) (f : PortRec → PortRec) (o : Port) (q : Slot) :
    (s.modPort p f).outEntry o q = s.outEntry o q := rfl
@[simp] theorem State.pcHolds_modPort (p : Port) (f : PortRec → PortRec) (o : Port) :
    (s.modPort p f).pcHolds o = s.pcHolds o := rfl
@[simp] theorem State.sxHolds_modPort (p : Port) (f : PortRec → PortRec) (o : Port) :
    (s.modPort p f).sxHolds o = s.sxHolds o := rfl
@[simp] theorem State.link_modPort (p : Port) (f : PortRec → PortRec) (l : Link) :
    (s.modPort p f).link l = s.link l := by cases l <;> rfl
@[simp] theorem State.alerts_modPort (p : Port) (f : PortRec → PortRec) (l : Link) :
    (s.modPort p f).alerts l = s.alerts l := by cases l <;> rfl
@[simp] theorem State.patch_setIn (p : Port) (n : Slot) (e : Option InClaim) (m : PatchNo) :
    (s.setIn p n e).patch m = s.patch m := rfl
@[simp] theorem State.ticket_setIn (p : Port) (n : Slot) (e : Option InClaim) (u : TicketNo) :
    (s.setIn p n e).ticket u = s.ticket u := rfl
@[simp] theorem State.port_setIn (p : Port) (n : Slot) (e : Option InClaim) (o : Port) :
    (s.setIn p n e).port o = s.port o := rfl
@[simp] theorem State.outEntry_setIn (p : Port) (n : Slot) (e : Option InClaim) (o : Port) (q : Slot) :
    (s.setIn p n e).outEntry o q = s.outEntry o q := rfl
@[simp] theorem State.pcHolds_setIn (p : Port) (n : Slot) (e : Option InClaim) (o : Port) :
    (s.setIn p n e).pcHolds o = s.pcHolds o := rfl
@[simp] theorem State.sxHolds_setIn (p : Port) (n : Slot) (e : Option InClaim) (o : Port) :
    (s.setIn p n e).sxHolds o = s.sxHolds o := rfl
@[simp] theorem State.link_setIn (p : Port) (n : Slot) (e : Option InClaim) (l : Link) :
    (s.setIn p n e).link l = s.link l := by cases l <;> rfl
@[simp] theorem State.alerts_setIn (p : Port) (n : Slot) (e : Option InClaim) (l : Link) :
    (s.setIn p n e).alerts l = s.alerts l := by cases l <;> rfl
@[simp] theorem State.patch_setOut (p : Port) (n : Slot) (e : OutEntry) (m : PatchNo) :
    (s.setOut p n e).patch m = s.patch m := rfl
@[simp] theorem State.ticket_setOut (p : Port) (n : Slot) (e : OutEntry) (u : TicketNo) :
    (s.setOut p n e).ticket u = s.ticket u := rfl
@[simp] theorem State.port_setOut (p : Port) (n : Slot) (e : OutEntry) (o : Port) :
    (s.setOut p n e).port o = s.port o := rfl
@[simp] theorem State.inEntry_setOut (p : Port) (n : Slot) (e : OutEntry) (o : Port) (q : Slot) :
    (s.setOut p n e).inEntry o q = s.inEntry o q := rfl
@[simp] theorem State.pcHolds_setOut (p : Port) (n : Slot) (e : OutEntry) (o : Port) :
    (s.setOut p n e).pcHolds o = s.pcHolds o := rfl
@[simp] theorem State.sxHolds_setOut (p : Port) (n : Slot) (e : OutEntry) (o : Port) :
    (s.setOut p n e).sxHolds o = s.sxHolds o := rfl
@[simp] theorem State.link_setOut (p : Port) (n : Slot) (e : OutEntry) (l : Link) :
    (s.setOut p n e).link l = s.link l := by cases l <;> rfl
@[simp] theorem State.alerts_setOut (p : Port) (n : Slot) (e : OutEntry) (l : Link) :
    (s.setOut p n e).alerts l = s.alerts l := by cases l <;> rfl
@[simp] theorem State.patch_setPc (p : Port) (b : Bool) (m : PatchNo) : (s.setPc p b).patch m = s.patch m := rfl
@[simp] theorem State.ticket_setPc (p : Port) (b : Bool) (u : TicketNo) : (s.setPc p b).ticket u = s.ticket u := rfl
@[simp] theorem State.port_setPc (p : Port) (b : Bool) (o : Port) : (s.setPc p b).port o = s.port o := rfl
@[simp] theorem State.inEntry_setPc (p : Port) (b : Bool) (o : Port) (q : Slot) :
    (s.setPc p b).inEntry o q = s.inEntry o q := rfl
@[simp] theorem State.outEntry_setPc (p : Port) (b : Bool) (o : Port) (q : Slot) :
    (s.setPc p b).outEntry o q = s.outEntry o q := rfl
@[simp] theorem State.sxHolds_setPc (p : Port) (b : Bool) (o : Port) : (s.setPc p b).sxHolds o = s.sxHolds o := rfl
@[simp] theorem State.link_setPc (p : Port) (b : Bool) (l : Link) : (s.setPc p b).link l = s.link l := by cases l <;> rfl
@[simp] theorem State.alerts_setPc (p : Port) (b : Bool) (l : Link) :
    (s.setPc p b).alerts l = s.alerts l := by cases l <;> rfl
@[simp] theorem State.patch_setSx (p : Port) (b : Bool) (m : PatchNo) : (s.setSx p b).patch m = s.patch m := rfl
@[simp] theorem State.ticket_setSx (p : Port) (b : Bool) (u : TicketNo) : (s.setSx p b).ticket u = s.ticket u := rfl
@[simp] theorem State.port_setSx (p : Port) (b : Bool) (o : Port) : (s.setSx p b).port o = s.port o := rfl
@[simp] theorem State.inEntry_setSx (p : Port) (b : Bool) (o : Port) (q : Slot) :
    (s.setSx p b).inEntry o q = s.inEntry o q := rfl
@[simp] theorem State.outEntry_setSx (p : Port) (b : Bool) (o : Port) (q : Slot) :
    (s.setSx p b).outEntry o q = s.outEntry o q := rfl
@[simp] theorem State.pcHolds_setSx (p : Port) (b : Bool) (o : Port) : (s.setSx p b).pcHolds o = s.pcHolds o := rfl
@[simp] theorem State.link_setSx (p : Port) (b : Bool) (l : Link) : (s.setSx p b).link l = s.link l := by cases l <;> rfl
@[simp] theorem State.alerts_setSx (p : Port) (b : Bool) (l : Link) :
    (s.setSx p b).alerts l = s.alerts l := by cases l <;> rfl
@[simp] theorem State.patch_raise (e : Event) (m : PatchNo) : (s.raise e).patch m = s.patch m := rfl
@[simp] theorem State.ticket_raise (e : Event) (u : TicketNo) : (s.raise e).ticket u = s.ticket u := rfl
@[simp] theorem State.port_raise (e : Event) (o : Port) : (s.raise e).port o = s.port o := rfl
@[simp] theorem State.inEntry_raise (e : Event) (o : Port) (q : Slot) : (s.raise e).inEntry o q = s.inEntry o q := rfl
@[simp] theorem State.outEntry_raise (e : Event) (o : Port) (q : Slot) : (s.raise e).outEntry o q = s.outEntry o q := rfl
@[simp] theorem State.pcHolds_raise (e : Event) (o : Port) : (s.raise e).pcHolds o = s.pcHolds o := rfl
@[simp] theorem State.sxHolds_raise (e : Event) (o : Port) : (s.raise e).sxHolds o = s.sxHolds o := rfl
@[simp] theorem State.link_raise (e : Event) (l : Link) : (s.raise e).link l = s.link l := by cases l <;> rfl
@[simp] theorem State.alerts_raise (e : Event) (l : Link) : (s.raise e).alerts l = s.alerts l := by cases l <;> rfl
@[simp] theorem State.patch_consume (e : Event) (m : PatchNo) : (s.consume e).patch m = s.patch m := rfl
@[simp] theorem State.ticket_consume (e : Event) (u : TicketNo) : (s.consume e).ticket u = s.ticket u := rfl
@[simp] theorem State.port_consume (e : Event) (o : Port) : (s.consume e).port o = s.port o := rfl
@[simp] theorem State.inEntry_consume (e : Event) (o : Port) (q : Slot) : (s.consume e).inEntry o q = s.inEntry o q := rfl
@[simp] theorem State.outEntry_consume (e : Event) (o : Port) (q : Slot) :
    (s.consume e).outEntry o q = s.outEntry o q := rfl
@[simp] theorem State.pcHolds_consume (e : Event) (o : Port) : (s.consume e).pcHolds o = s.pcHolds o := rfl
@[simp] theorem State.sxHolds_consume (e : Event) (o : Port) : (s.consume e).sxHolds o = s.sxHolds o := rfl
@[simp] theorem State.link_consume (e : Event) (l : Link) : (s.consume e).link l = s.link l := by cases l <;> rfl
@[simp] theorem State.alerts_consume (e : Event) (l : Link) : (s.consume e).alerts l = s.alerts l := by cases l <;> rfl
@[simp] theorem State.patch_listAppend (n : PatchNo) (m : PatchNo) : (s.listAppend n).patch m = s.patch m := rfl
@[simp] theorem State.ticket_listAppend (n : PatchNo) (u : TicketNo) : (s.listAppend n).ticket u = s.ticket u := rfl
@[simp] theorem State.port_listAppend (n : PatchNo) (o : Port) : (s.listAppend n).port o = s.port o := rfl
@[simp] theorem State.inEntry_listAppend (n : PatchNo) (o : Port) (q : Slot) :
    (s.listAppend n).inEntry o q = s.inEntry o q := rfl
@[simp] theorem State.outEntry_listAppend (n : PatchNo) (o : Port) (q : Slot) :
    (s.listAppend n).outEntry o q = s.outEntry o q := rfl
@[simp] theorem State.pcHolds_listAppend (n : PatchNo) (o : Port) : (s.listAppend n).pcHolds o = s.pcHolds o := rfl
@[simp] theorem State.sxHolds_listAppend (n : PatchNo) (o : Port) : (s.listAppend n).sxHolds o = s.sxHolds o := rfl
@[simp] theorem State.link_listAppend (n : PatchNo) (l : Link) : (s.listAppend n).link l = s.link l := by cases l <;> rfl
@[simp] theorem State.alerts_listAppend (n : PatchNo) (l : Link) :
    (s.listAppend n).alerts l = s.alerts l := by cases l <;> rfl
@[simp] theorem State.patch_dropIn (gone : InClaim → Bool) (m : PatchNo) : (s.dropIn gone).patch m = s.patch m := rfl
@[simp] theorem State.ticket_dropIn (gone : InClaim → Bool) (u : TicketNo) : (s.dropIn gone).ticket u = s.ticket u := rfl
@[simp] theorem State.port_dropIn (gone : InClaim → Bool) (o : Port) : (s.dropIn gone).port o = s.port o := rfl
@[simp] theorem State.outEntry_dropIn (gone : InClaim → Bool) (o : Port) (q : Slot) :
    (s.dropIn gone).outEntry o q = s.outEntry o q := rfl
@[simp] theorem State.pcHolds_dropIn (gone : InClaim → Bool) (o : Port) : (s.dropIn gone).pcHolds o = s.pcHolds o := rfl
@[simp] theorem State.sxHolds_dropIn (gone : InClaim → Bool) (o : Port) : (s.dropIn gone).sxHolds o = s.sxHolds o := rfl
@[simp] theorem State.link_dropIn (gone : InClaim → Bool) (l : Link) :
    (s.dropIn gone).link l = s.link l := by cases l <;> rfl
@[simp] theorem State.alerts_dropIn (gone : InClaim → Bool) (l : Link) :
    (s.dropIn gone).alerts l = s.alerts l := by cases l <;> rfl
@[simp] theorem State.patch_dropOut (a : Port → OutHolder → Bool) (b : Port → OutResv → Bool) (m : PatchNo) :
    (s.dropOut a b).patch m = s.patch m := rfl
@[simp] theorem State.ticket_dropOut (a : Port → OutHolder → Bool) (b : Port → OutResv → Bool) (u : TicketNo) :
    (s.dropOut a b).ticket u = s.ticket u := rfl
@[simp] theorem State.port_dropOut (a : Port → OutHolder → Bool) (b : Port → OutResv → Bool) (o : Port) :
    (s.dropOut a b).port o = s.port o := rfl
@[simp] theorem State.inEntry_dropOut (a : Port → OutHolder → Bool) (b : Port → OutResv → Bool) (o : Port) (q : Slot) :
    (s.dropOut a b).inEntry o q = s.inEntry o q := rfl
@[simp] theorem State.pcHolds_dropOut (a : Port → OutHolder → Bool) (b : Port → OutResv → Bool) (o : Port) :
    (s.dropOut a b).pcHolds o = s.pcHolds o := rfl
@[simp] theorem State.sxHolds_dropOut (a : Port → OutHolder → Bool) (b : Port → OutResv → Bool) (o : Port) :
    (s.dropOut a b).sxHolds o = s.sxHolds o := rfl
@[simp] theorem State.link_dropOut (a : Port → OutHolder → Bool) (b : Port → OutResv → Bool) (l : Link) :
    (s.dropOut a b).link l = s.link l := by cases l <;> rfl
@[simp] theorem State.alerts_dropOut (a : Port → OutHolder → Bool) (b : Port → OutResv → Bool) (l : Link) :
    (s.dropOut a b).alerts l = s.alerts l := by cases l <;> rfl
@[simp] theorem State.patch_dropHolders (n : PatchNo) (nm : DestName) (m : PatchNo) :
    (s.dropHolders n nm).patch m = s.patch m := rfl
@[simp] theorem State.ticket_dropHolders (n : PatchNo) (nm : DestName) (u : TicketNo) :
    (s.dropHolders n nm).ticket u = s.ticket u := rfl
@[simp] theorem State.port_dropHolders (n : PatchNo) (nm : DestName) (o : Port) :
    (s.dropHolders n nm).port o = s.port o := rfl
@[simp] theorem State.inEntry_dropHolders (n : PatchNo) (nm : DestName) (o : Port) (q : Slot) :
    (s.dropHolders n nm).inEntry o q = s.inEntry o q := rfl
@[simp] theorem State.pcHolds_dropHolders (n : PatchNo) (nm : DestName) (o : Port) :
    (s.dropHolders n nm).pcHolds o = s.pcHolds o := rfl
@[simp] theorem State.sxHolds_dropHolders (n : PatchNo) (nm : DestName) (o : Port) :
    (s.dropHolders n nm).sxHolds o = s.sxHolds o := rfl
@[simp] theorem State.link_dropHolders (n : PatchNo) (nm : DestName) (l : Link) :
    (s.dropHolders n nm).link l = s.link l := by cases l <;> rfl
@[simp] theorem State.alerts_dropHolders (n : PatchNo) (nm : DestName) (l : Link) :
    (s.dropHolders n nm).alerts l = s.alerts l := by cases l <;> rfl
@[simp] theorem State.patch_dropReservations (n : PatchNo) (m : PatchNo) :
    (s.dropReservations n).patch m = s.patch m := rfl
@[simp] theorem State.ticket_dropReservations (n : PatchNo) (u : TicketNo) :
    (s.dropReservations n).ticket u = s.ticket u := rfl
@[simp] theorem State.port_dropReservations (n : PatchNo) (o : Port) : (s.dropReservations n).port o = s.port o := rfl
@[simp] theorem State.pcHolds_dropReservations (n : PatchNo) (o : Port) :
    (s.dropReservations n).pcHolds o = s.pcHolds o := rfl
@[simp] theorem State.sxHolds_dropReservations (n : PatchNo) (o : Port) :
    (s.dropReservations n).sxHolds o = s.sxHolds o := rfl
@[simp] theorem State.link_dropReservations (n : PatchNo) (l : Link) :
    (s.dropReservations n).link l = s.link l := by cases l <;> rfl
@[simp] theorem State.alerts_dropReservations (n : PatchNo) (l : Link) :
    (s.dropReservations n).alerts l = s.alerts l := by cases l <;> rfl
@[simp] theorem State.patch_clearLatch (n : PatchNo) (m : PatchNo) : (s.clearLatch n).patch m = s.patch m := rfl
@[simp] theorem State.ticket_clearLatch (n : PatchNo) (u : TicketNo) : (s.clearLatch n).ticket u = s.ticket u := rfl
@[simp] theorem State.inEntry_clearLatch (n : PatchNo) (o : Port) (q : Slot) :
    (s.clearLatch n).inEntry o q = s.inEntry o q := rfl
@[simp] theorem State.outEntry_clearLatch (n : PatchNo) (o : Port) (q : Slot) :
    (s.clearLatch n).outEntry o q = s.outEntry o q := rfl
@[simp] theorem State.pcHolds_clearLatch (n : PatchNo) (o : Port) : (s.clearLatch n).pcHolds o = s.pcHolds o := rfl
@[simp] theorem State.sxHolds_clearLatch (n : PatchNo) (o : Port) : (s.clearLatch n).sxHolds o = s.sxHolds o := rfl
@[simp] theorem State.link_clearLatch (n : PatchNo) (l : Link) : (s.clearLatch n).link l = s.link l := by cases l <;> rfl
@[simp] theorem State.alerts_clearLatch (n : PatchNo) (l : Link) :
    (s.clearLatch n).alerts l = s.alerts l := by cases l <;> rfl
@[simp] theorem State.patch_dropDonor (n : PatchNo) (m : PatchNo) : (s.dropDonor n).patch m = s.patch m := rfl
@[simp] theorem State.port_dropDonor (n : PatchNo) (o : Port) : (s.dropDonor n).port o = s.port o := rfl
@[simp] theorem State.inEntry_dropDonor (n : PatchNo) (o : Port) (q : Slot) :
    (s.dropDonor n).inEntry o q = s.inEntry o q := rfl
@[simp] theorem State.outEntry_dropDonor (n : PatchNo) (o : Port) (q : Slot) :
    (s.dropDonor n).outEntry o q = s.outEntry o q := rfl
@[simp] theorem State.pcHolds_dropDonor (n : PatchNo) (o : Port) : (s.dropDonor n).pcHolds o = s.pcHolds o := rfl
@[simp] theorem State.sxHolds_dropDonor (n : PatchNo) (o : Port) : (s.dropDonor n).sxHolds o = s.sxHolds o := rfl
@[simp] theorem State.link_dropDonor (n : PatchNo) (l : Link) : (s.dropDonor n).link l = s.link l := by cases l <;> rfl
@[simp] theorem State.alerts_dropDonor (n : PatchNo) (l : Link) :
    (s.dropDonor n).alerts l = s.alerts l := by cases l <;> rfl
@[simp] theorem State.patch_setLink (l : Link) (r : LinkRec) (m : PatchNo) :
    (s.setLink l r).patch m = s.patch m := by cases l <;> rfl
@[simp] theorem State.ticket_setLink (l : Link) (r : LinkRec) (u : TicketNo) :
    (s.setLink l r).ticket u = s.ticket u := by cases l <;> rfl
@[simp] theorem State.port_setLink (l : Link) (r : LinkRec) (o : Port) :
    (s.setLink l r).port o = s.port o := by cases l <;> rfl
@[simp] theorem State.inEntry_setLink (l : Link) (r : LinkRec) (o : Port) (q : Slot) :
    (s.setLink l r).inEntry o q = s.inEntry o q := by cases l <;> rfl
@[simp] theorem State.outEntry_setLink (l : Link) (r : LinkRec) (o : Port) (q : Slot) :
    (s.setLink l r).outEntry o q = s.outEntry o q := by cases l <;> rfl
@[simp] theorem State.pcHolds_setLink (l : Link) (r : LinkRec) (o : Port) :
    (s.setLink l r).pcHolds o = s.pcHolds o := by cases l <;> rfl
@[simp] theorem State.sxHolds_setLink (l : Link) (r : LinkRec) (o : Port) :
    (s.setLink l r).sxHolds o = s.sxHolds o := by cases l <;> rfl
@[simp] theorem State.alerts_setLink (l : Link) (r : LinkRec) (l' : Link) :
    (s.setLink l r).alerts l' = s.alerts l' := by cases l <;> cases l' <;> rfl
@[simp] theorem State.patch_setAlerts (l : Link) (r : Alerts) (m : PatchNo) :
    (s.setAlerts l r).patch m = s.patch m := by cases l <;> rfl
@[simp] theorem State.ticket_setAlerts (l : Link) (r : Alerts) (u : TicketNo) :
    (s.setAlerts l r).ticket u = s.ticket u := by cases l <;> rfl
@[simp] theorem State.port_setAlerts (l : Link) (r : Alerts) (o : Port) :
    (s.setAlerts l r).port o = s.port o := by cases l <;> rfl
@[simp] theorem State.inEntry_setAlerts (l : Link) (r : Alerts) (o : Port) (q : Slot) :
    (s.setAlerts l r).inEntry o q = s.inEntry o q := by cases l <;> rfl
@[simp] theorem State.outEntry_setAlerts (l : Link) (r : Alerts) (o : Port) (q : Slot) :
    (s.setAlerts l r).outEntry o q = s.outEntry o q := by cases l <;> rfl
@[simp] theorem State.pcHolds_setAlerts (l : Link) (r : Alerts) (o : Port) :
    (s.setAlerts l r).pcHolds o = s.pcHolds o := by cases l <;> rfl
@[simp] theorem State.sxHolds_setAlerts (l : Link) (r : Alerts) (o : Port) :
    (s.setAlerts l r).sxHolds o = s.sxHolds o := by cases l <;> rfl
@[simp] theorem State.link_setAlerts (l : Link) (r : Alerts) (l' : Link) :
    (s.setAlerts l r).link l' = s.link l' := by cases l <;> cases l' <;> rfl

/-! ### cells -/

@[simp] theorem cell_putCell_self {α : Type} {n : Nat} (v : Vector α n) (i : Fin n) (x : α) : cell (putCell v i x) i = x := by
  simp [cell, putCell]

theorem cell_putCell_of_ne {α : Type} {n : Nat} (v : Vector α n) {i j : Fin n} (x : α) (h : i ≠ j) :
    cell (putCell v i x) j = cell v j := by
  simp [cell, putCell, Fin.val_ne_of_ne h]

theorem cell_putCell {α : Type} {n : Nat} (v : Vector α n) (i j : Fin n) (x : α) :
    cell (putCell v i x) j = if i = j then x else cell v j := by
  split
  · next h => subst h; simp
  · next h => exact cell_putCell_of_ne v x h

@[simp] theorem putCell_cell {α : Type} {n : Nat} (v : Vector α n) (i : Fin n) : putCell v i (cell v i) = v := by
  simp [cell, putCell]

@[simp] theorem putCell_putCell {α : Type} {n : Nat} (v : Vector α n) (i : Fin n) (x y : α) :
    putCell (putCell v i x) i y = putCell v i y := by
  simp [putCell]

@[simp] theorem cell_map {α β : Type} {n : Nat} (v : Vector α n) (f : α → β) (i : Fin n) : cell (v.map f) i = f (cell v i) := by
  simp [cell]

@[simp] theorem cell_replicate {α : Type} {n : Nat} (x : α) (i : Fin n) : cell (Vector.replicate n x) i = x := by
  simp [cell]

theorem cell_ext {α : Type} {n : Nat} {v w : Vector α n} (h : ∀ i, cell v i = cell w i) : v = w :=
  Vector.ext fun i hi => h ⟨i, hi⟩

theorem portIdx_injective : ∀ p q : Port, portIdx p = portIdx q → p = q := by
  intro p q h; cases p <;> cases q <;> first | rfl | (simp [portIdx] at h)

theorem mem_allPorts (p : Port) : p ∈ allPorts := by cases p <;> decide

/-! ### accessors under the updates of their own tables -/

theorem State.patch_setPatch (n m : PatchNo) (r : Patch) : (s.setPatch n r).patch m = if n = m then r else s.patch m :=
  cell_putCell _ _ _ _

@[simp] theorem State.patch_setPatch_self (n : PatchNo) (r : Patch) : (s.setPatch n r).patch n = r :=
  cell_putCell_self _ _ _

theorem State.patch_modPatch (n m : PatchNo) (f : Patch → Patch) :
    (s.modPatch n f).patch m = if n = m then f (s.patch m) else s.patch m := by
  rw [State.modPatch, State.patch_setPatch]; split
  · next h => rw [h]
  · rfl

@[simp] theorem State.patch_modPatch_self (n : PatchNo) (f : Patch → Patch) : (s.modPatch n f).patch n = f (s.patch n) :=
  cell_putCell_self _ _ _

@[simp] theorem State.patch_mapPatches (f : Patch → Patch) (n : PatchNo) : (s.mapPatches f).patch n = f (s.patch n) :=
  cell_map _ _ _

theorem State.ticket_setTicket (t u : TicketNo) (k : Ticket) : (s.setTicket t k).ticket u = if t = u then k else s.ticket u :=
  cell_putCell _ _ _ _

@[simp] theorem State.ticket_setTicket_self (t : TicketNo) (k : Ticket) : (s.setTicket t k).ticket t = k :=
  cell_putCell_self _ _ _

theorem State.port_setPort (p q : Port) (r : PortRec) : (s.setPort p r).port q = if p = q then r else s.port q := by
  simp only [State.port, State.setPort, cell_putCell]
  by_cases h : p = q
  · simp [h]
  · have : portIdx p ≠ portIdx q := fun e => h (portIdx_injective _ _ e)
    simp [h, this]

@[simp] theorem State.port_setPort_self (p : Port) (r : PortRec) : (s.setPort p r).port p = r := cell_putCell_self _ _ _

@[simp] theorem State.port_modPort_self (p : Port) (f : PortRec → PortRec) : (s.modPort p f).port p = f (s.port p) :=
  cell_putCell_self _ _ _

theorem State.port_modPort (p q : Port) (f : PortRec → PortRec) :
    (s.modPort p f).port q = if p = q then f (s.port q) else s.port q := by
  rw [State.modPort, State.port_setPort]; split
  · next h => rw [h]
  · rfl

theorem State.pcHolds_setPc (p q : Port) (b : Bool) : (s.setPc p b).pcHolds q = if p = q then b else s.pcHolds q := by
  simp only [State.pcHolds, State.setPc, cell_putCell]
  by_cases h : p = q
  · simp [h]
  · have : portIdx p ≠ portIdx q := fun e => h (portIdx_injective _ _ e)
    simp [h, this]

theorem State.sxHolds_setSx (p q : Port) (b : Bool) : (s.setSx p b).sxHolds q = if p = q then b else s.sxHolds q := by
  simp only [State.sxHolds, State.setSx, cell_putCell]
  by_cases h : p = q
  · simp [h]
  · have : portIdx p ≠ portIdx q := fun e => h (portIdx_injective _ _ e)
    simp [h, this]

theorem State.inEntry_setIn (p q : Port) (m n : Slot) (e : Option InClaim) :
    (s.setIn p m e).inEntry q n = if p = q ∧ m = n then e else s.inEntry q n := by
  simp only [State.inEntry, State.setIn, cell_putCell]
  by_cases h : p = q
  · subst h; simp only [cell_putCell, if_true, true_and]
  · have : portIdx p ≠ portIdx q := fun e => h (portIdx_injective _ _ e)
    simp [h, this]

theorem State.outEntry_setOut (p q : Port) (m n : Slot) (e : OutEntry) :
    (s.setOut p m e).outEntry q n = if p = q ∧ m = n then e else s.outEntry q n := by
  simp only [State.outEntry, State.setOut, cell_putCell]
  by_cases h : p = q
  · subst h; simp only [cell_putCell, if_true, true_and]
  · have : portIdx p ≠ portIdx q := fun e => h (portIdx_injective _ _ e)
    simp [h, this]

theorem State.inEntry_dropIn (gone : InClaim → Bool) (p : Port) (n : Slot) :
    (s.dropIn gone).inEntry p n = (s.inEntry p n).filter fun c => !gone c := by
  simp [State.inEntry, State.dropIn]

theorem State.outEntry_dropOut (a : Port → OutHolder → Bool) (b : Port → OutResv → Bool) (p : Port) (n : Slot) :
    (s.dropOut a b).outEntry p n =
      ⟨(s.outEntry p n).holder.filter fun h => !a p h, (s.outEntry p n).resv.filter fun r => !b p r⟩ := by
  cases p <;> simp [State.outEntry, State.dropOut, allPorts, cell_putCell, portIdx]

@[simp] theorem State.port_clearLatch (n : PatchNo) (p : Port) :
    (s.clearLatch n).port p = { s.port p with latch := (s.port p).latch.filter fun l => l.patch ≠ n } :=
  cell_map _ _ _

@[simp] theorem State.ticket_dropDonor (n : PatchNo) (t : TicketNo) :
    (s.dropDonor n).ticket t =
      if (s.ticket t).state = .waiting then
        { s.ticket t with donors := (s.ticket t).donors.filter fun d => d ≠ n }
      else s.ticket t :=
  cell_map _ _ _

@[simp] theorem State.link_setLink_self (l : Link) (r : LinkRec) : (s.setLink l r).link l = r := by cases l <;> rfl

@[simp] theorem State.link_modLink_self (l : Link) (f : LinkRec → LinkRec) : (s.modLink l f).link l = f (s.link l) := by
  cases l <;> rfl

@[simp] theorem State.alerts_setAlerts_self (l : Link) (a : Alerts) : (s.setAlerts l a).alerts l = a := by cases l <;> rfl

end Sys2Proof.Machine
end

