-- ==== Sys2Proof/Laws/Edits.lean ====
section
/-! SUPPORT. What the shared operations of the edits leave alone, and what freeing a record does. -/

namespace Sys2Proof.Machine

/-- The state outside the Patch Controller's tables, the ports and the cause sets. -/
def State.outer (s : State) :=
  (s.pending, s.raised, s.pcLocked, s.sxLocked, s.mainLink, s.auxLink, s.lastServed, s.rights, s.auxAddress, s.spi,
    s.i2c)

/-- Equal outer states agree on every field of it. -/
theorem State.outer_fields {s s' : State} (h : s'.outer = s.outer) :
    s'.pending = s.pending ∧ s'.raised = s.raised ∧ s'.pcLocked = s.pcLocked ∧ s'.sxLocked = s.sxLocked
    ∧ s'.mainLink = s.mainLink ∧ s'.auxLink = s.auxLink ∧ s'.lastServed = s.lastServed ∧ s'.rights = s.rights
    ∧ s'.auxAddress = s.auxAddress ∧ s'.spi = s.spi ∧ s'.i2c = s.i2c := by
  simpa only [State.outer, Prod.mk.injEq] using h

/-- A fold keeps what each of its steps keeps. -/
theorem foldl_keeps {α β γ : Type} (g : β → γ) (f : β → α → β) (h : ∀ b a, g (f b a) = g b) (l : List α) (b : β) :
    g (l.foldl f b) = g b := by
  induction l generalizing b with
  | nil => rfl
  | cons a l ih => rw [List.foldl_cons, ih, h]

variable (s : State)

/-! ### outer -/

@[simp] theorem State.setAlerts_outer (l : Link) (a : Alerts) : (s.setAlerts l a).outer = s.outer := by cases l <;> rfl

@[simp] theorem State.post_outer (l : Link) (x : Posting) : (s.post l x).outer = s.outer := by simp [State.post]

@[simp] theorem State.postEvicted_outer (n : PatchNo) : (s.postEvicted n).outer = s.outer := by simp [State.postEvicted]

@[simp] theorem State.postPort_outer (p : Port) (x : Posting) : (s.postPort p x).outer = s.outer := by
  simp only [State.postPort]; split <;> simp

@[simp] theorem State.checkThreshold_outer (n : PatchNo) (a b : Nat) : (s.checkThreshold n a b).outer = s.outer := by
  simp only [State.checkThreshold]; split <;> simp

@[simp] theorem State.claimSource_outer (n : PatchNo) (k : ClaimKind) (src : Source) :
    (s.claimSource n k src).outer = s.outer := by
  rw [State.claimSource, foldl_keeps State.outer]
  intros; rfl

@[simp] theorem State.holdDest_outer (n : PatchNo) (d : Destination) : (s.holdDest n d).outer = s.outer := by
  cases h : d.second <;> simp only [State.holdDest, h] <;> rfl

@[simp] theorem State.reserveDest_outer (n : PatchNo) (d : Destination) : (s.reserveDest n d).outer = s.outer := by
  cases h : d.second <;> simp only [State.reserveDest, h] <;> rfl

@[simp] theorem State.modPatch_outer (n : PatchNo) (f : Patch → Patch) : (s.modPatch n f).outer = s.outer := rfl

@[simp] theorem State.setPatch_outer (n : PatchNo) (r : Patch) : (s.setPatch n r).outer = s.outer := rfl

@[simp] theorem State.setTicket_outer (t : TicketNo) (k : Ticket) : (s.setTicket t k).outer = s.outer := rfl

@[simp] theorem State.releaseDest_outer (n : PatchNo) (nm : DestName) : (s.releaseDest n nm).outer = s.outer := rfl

@[simp] theorem State.dropReservations_outer (n : PatchNo) : (s.dropReservations n).outer = s.outer := rfl

@[simp] theorem State.freePatch_outer (n : PatchNo) : (s.freePatch n).outer = s.outer := by
  simp only [State.freePatch, State.listRemove]; split <;> rfl

@[simp] theorem State.activateSource_outer (n : PatchNo) : (s.activateSource n).outer = s.outer := by
  simp only [State.activateSource]; split <;> simp

@[simp] theorem State.moveSource_outer (n : PatchNo) : (s.moveSource n).outer = s.outer := by
  simp only [State.moveSource]; split
  · rfl
  · rw [State.modPatch_outer, State.claimSource_outer]; rfl

@[simp] theorem State.activateDest_outer (n : PatchNo) (nm : DestName) : (s.activateDest n nm).outer = s.outer := by
  simp only [State.activateDest]; split <;> simp

@[simp] theorem State.closeIntake_outer (n : PatchNo) : (s.closeIntake n).outer = s.outer := rfl

@[simp] theorem State.act_outer (n : PatchNo) (e : Endpoint) : (s.act n e).outer = s.outer := by
  cases e <;> simp [State.act, State.applyMute]

@[simp] theorem State.endTicket_outer (t : TicketNo) (how : Ending) : (s.endTicket t how).outer = s.outer := by
  simp only [State.endTicket]; split <;> simp

@[simp] theorem State.completeIfEmpty_outer (t : TicketNo) : (s.completeIfEmpty t).outer = s.outer := by
  simp only [State.completeIfEmpty]
  split
  · rw [State.endTicket_outer]; split <;> simp
  · rfl

@[simp] theorem State.freeEmptyDonor_outer (n : PatchNo) : (s.freeEmptyDonor n).outer = s.outer := by
  simp only [State.freeEmptyDonor]; split <;> simp

@[simp] theorem State.finishRetire_outer (t : TicketNo) (n : PatchNo) : (s.finishRetire t n).outer = s.outer := by
  simp only [State.finishRetire]; split <;> simp

@[simp] theorem State.applyEndpoint_outer (t : TicketNo) (e : Endpoint) : (s.applyEndpoint t e).outer = s.outer := by
  simp only [State.applyEndpoint]
  split
  · rfl
  · split
    · rw [State.completeIfEmpty_outer]; split <;> simp
    · rfl

@[simp] theorem State.applyTicketOn_outer (p : Port) (exit : Bool) (t : TicketNo) :
    (s.applyTicketOn p exit t).outer = s.outer :=
  foldl_keeps State.outer _ (fun _ _ => by split <;> simp) _ _

@[simp] theorem State.applyOn_outer (p : Port) (exit : Bool) : (s.applyOn p exit).outer = s.outer :=
  foldl_keeps State.outer _ (fun _ _ => by simp) _ _

@[simp] theorem State.reserveFor_outer (n : PatchNo) (e : Endpoint) : (s.reserveFor n e).outer = s.outer := by
  cases e <;> simp only [State.reserveFor] <;> (try split) <;> simp

@[simp] theorem State.stage_outer (t : TicketNo) (k : Ticket) (n : PatchNo) : (s.stage t k n).outer = s.outer := by
  simp only [State.stage, State.completeIfEmpty_outer]
  rw [foldl_keeps State.outer _ (fun _ _ => by split <;> simp), foldl_keeps State.outer _ (fun _ _ => by split <;> simp)]
  rfl

@[simp] theorem State.mark_outer (n : PatchNo) (nm : DestName) (why : ReleaseReason) : (s.mark n nm why).outer = s.outer :=
  rfl

@[simp] theorem State.markDonors_outer (es : List Endpoint) : (s.markDonors es).outer = s.outer :=
  foldl_keeps State.outer _ (fun _ e => by cases e <;> rfl) _ _

@[simp] theorem State.unmarkDonors_outer (es : List Endpoint) : (s.unmarkDonors es).outer = s.outer :=
  foldl_keeps State.outer _ (fun _ e => by cases e <;> rfl) _ _

@[simp] theorem State.withdraw_outer (t : TicketNo) : (s.withdraw t).outer = s.outer := by
  simp only [State.withdraw]; split <;> simp

@[simp] theorem State.evict_outer (n : PatchNo) : (s.evict n).outer = s.outer := by simp [State.evict]

@[simp] theorem State.cancelTicket_outer (t : TicketNo) : (s.cancelTicket t).outer = s.outer := by
  simp only [State.cancelTicket, State.endTicket_outer]; split <;> simp

@[simp] theorem State.clearAll_outer (ts : List TicketNo) (ns : List PatchNo) : (s.clearAll ts ns).outer = s.outer := by
  simp only [State.clearAll]
  rw [foldl_keeps State.outer _ (fun _ _ => by simp only [State.clearPatch]; split <;> simp),
    foldl_keeps State.outer _ (fun _ _ => by simp)]

/-! ### freeing a record (R12) -/

/-- Freeing a record does all that R12 says, and touches no other record. -/
theorem State.freePatch_freed (n : PatchNo) :
    s.Freed (s.freePatch n) n ∧ (∀ m, m ≠ n → (s.freePatch n).patch m = s.patch m)
    ∧ (s.freePatch n).mainAlerts = s.mainAlerts ∧ (s.freePatch n).auxAlerts = s.auxAlerts := by
  refine ⟨⟨?_, ?_, ?_, ?_, ?_, ?_⟩, ?_, ?_, ?_⟩
  · simp [State.freePatch]
  · intro p q
    simp only [State.freePatch, State.listRemove]
    split <;> simp [State.inEntry, State.dropIn, State.dropOut, State.clearLatch, State.dropDonor, State.setPatch]
  · intro p q
    have h := (s.dropIn fun c => c.patch = n).outEntry_dropOut (fun _ h => h.patch = n) (fun _ r => r.patch = n) p q
    simp only [State.freePatch, State.listRemove]
    split <;> simpa [State.outEntry, State.clearLatch, State.dropDonor, State.setPatch] using h
  · intro p
    have h := ((s.dropIn fun c => c.patch = n).dropOut (fun _ h => h.patch = n) (fun _ r => r.patch = n)).port_clearLatch n p
    simp only [State.freePatch, State.listRemove]
    split <;> simpa [State.port, State.dropDonor, State.setPatch] using h
  · simp only [State.freePatch, State.listRemove]
    split
    · rfl
    · next h => exact (List.erase_of_not_mem h).symm
  · simp only [State.freePatch, State.listRemove]
    split <;> next h => simp_all
  · intro m h
    simp only [State.freePatch, State.patch_setPatch, Ne.symm h, if_false]
    simp only [State.listRemove]; split <;> rfl
  · simp only [State.freePatch, State.listRemove]; split <;> rfl
  · simp only [State.freePatch, State.listRemove]; split <;> rfl

end Sys2Proof.Machine
end

