-- ==== Sys2Proof/Laws/Commands.lean ====
section
/-! SUPPORT. What taking a host command can do: not taken, refused, or carried out and answered. -/

namespace Sys2Proof.Machine

theorem State.mayTake_iff (s : State) (l : Link) : s.mayTake l = true ↔ s.Accepts l := by
  constructor
  · intro h
    simp only [State.mayTake, Bool.and_eq_true, Bool.or_eq_true, decide_eq_true_eq] at h
    exact ⟨h.1, fun e => by simpa [e] using h.2⟩
  · rintro ⟨h1, h2⟩
    cases l <;> simp_all [State.mayTake]

@[simp] theorem firstFailure_nil : firstFailure [] = none := rfl

@[simp] theorem firstFailure_cons (b : Bool) (st : Status) (cs : List Check) :
    firstFailure ((b, st) :: cs) = if b then some st else firstFailure cs := by
  cases b <;> rfl

/-! ### the state in which a taken command is judged -/

section
variable (s : State) (code : Byte) (t : Taken)

@[simp] theorem State.takeFrame_pending : (s.takeFrame code t).pending = s.pending := by simp [State.takeFrame]
@[simp] theorem State.takeFrame_raised : (s.takeFrame code t).raised = s.raised := by simp [State.takeFrame]
@[simp] theorem State.takeFrame_patches : (s.takeFrame code t).patches = s.patches := by simp [State.takeFrame]
@[simp] theorem State.takeFrame_order : (s.takeFrame code t).order = s.order := by simp [State.takeFrame]
@[simp] theorem State.takeFrame_changes : (s.takeFrame code t).changes = s.changes := by simp [State.takeFrame]
@[simp] theorem State.takeFrame_inMap : (s.takeFrame code t).inMap = s.inMap := by simp [State.takeFrame]
@[simp] theorem State.takeFrame_outMap : (s.takeFrame code t).outMap = s.outMap := by simp [State.takeFrame]
@[simp] theorem State.takeFrame_tickets : (s.takeFrame code t).tickets = s.tickets := by simp [State.takeFrame]
@[simp] theorem State.takeFrame_pcLocked : (s.takeFrame code t).pcLocked = s.pcLocked := by simp [State.takeFrame]
@[simp] theorem State.takeFrame_sxLocked : (s.takeFrame code t).sxLocked = s.sxLocked := by simp [State.takeFrame]
@[simp] theorem State.takeFrame_ports : (s.takeFrame code t).ports = s.ports := by simp [State.takeFrame]
@[simp] theorem State.takeFrame_lastServed : (s.takeFrame code t).lastServed = t.link := rfl
@[simp] theorem State.takeFrame_rights : (s.takeFrame code t).rights = s.rights := by simp [State.takeFrame]
@[simp] theorem State.takeFrame_auxAddress : (s.takeFrame code t).auxAddress = s.auxAddress := by simp [State.takeFrame]
@[simp] theorem State.takeFrame_spi : (s.takeFrame code t).spi = s.spi := by simp [State.takeFrame]
@[simp] theorem State.takeFrame_i2c : (s.takeFrame code t).i2c = s.i2c := by simp [State.takeFrame]
@[simp] theorem State.takeFrame_mainAlerts : (s.takeFrame code t).mainAlerts = s.mainAlerts := by simp [State.takeFrame]
@[simp] theorem State.takeFrame_auxAlerts : (s.takeFrame code t).auxAlerts = s.auxAlerts := by simp [State.takeFrame]

@[simp] theorem State.takeFrame_patch (n : PatchNo) : (s.takeFrame code t).patch n = s.patch n := by simp [State.patch]
@[simp] theorem State.takeFrame_ticket (k : TicketNo) : (s.takeFrame code t).ticket k = s.ticket k := by simp [State.ticket]
@[simp] theorem State.takeFrame_port (p : Port) : (s.takeFrame code t).port p = s.port p := by simp [State.port]
@[simp] theorem State.takeFrame_inEntry (p : Port) (n : Slot) : (s.takeFrame code t).inEntry p n = s.inEntry p n := by
  simp [State.inEntry]
@[simp] theorem State.takeFrame_outEntry (p : Port) (n : Slot) : (s.takeFrame code t).outEntry p n = s.outEntry p n := by
  simp [State.outEntry]
@[simp] theorem State.takeFrame_pcHolds (p : Port) : (s.takeFrame code t).pcHolds p = s.pcHolds p := by simp [State.pcHolds]
@[simp] theorem State.takeFrame_sxHolds (p : Port) : (s.takeFrame code t).sxHolds p = s.sxHolds p := by simp [State.sxHolds]
@[simp] theorem State.takeFrame_alerts (l : Link) : (s.takeFrame code t).alerts l = s.alerts l := by
  cases l <;> simp [State.alerts]
@[simp] theorem State.takeFrame_freeTicket : (s.takeFrame code t).freeTicket? = s.freeTicket? := by simp [State.freeTicket?]
@[simp] theorem State.takeFrame_freeRecord : (s.takeFrame code t).freeRecord? = s.freeRecord? := by simp [State.freeRecord?]
@[simp] theorem State.takeFrame_newTicket : (s.takeFrame code t).newTicket = s.newTicket := by simp [State.newTicket]
@[simp] theorem State.takeFrame_auxTicketCount : (s.takeFrame code t).auxTicketCount = s.auxTicketCount := by
  simp [State.auxTicketCount]
@[simp] theorem State.takeFrame_busy (n : PatchNo) : (s.takeFrame code t).busy n = s.busy n := by simp [State.busy]
@[simp] theorem State.takeFrame_isDonor (n : PatchNo) : (s.takeFrame code t).isDonor n = s.isDonor n := by
  simp [State.isDonor]
@[simp] theorem State.takeFrame_auxOwned (n : PatchNo) : (s.takeFrame code t).auxOwned n = s.auxOwned n := by
  simp [State.auxOwned]

end

/-! ### the outcomes -/

/-- A frame taken and answered with nothing done between is the state `answered` describes. -/
theorem State.respond_takeFrame (s : State) (code : Byte) (t : Taken) (st : Status) (payload : List Byte) :
    (s.takeFrame code t).respond t.link ⟨st, t.seq, code, payload⟩ = s.answered code t st payload := by
  obtain ⟨l, q, n, ps⟩ := t
  cases l with
  | main =>
    by_cases h : s.mainLink.commands.head? = some ⟨code, q, n, ps⟩ <;>
      simp [State.takeFrame, State.respond, State.answered, State.modLink, State.setLink, State.link, h]
  | aux =>
    by_cases h : s.auxLink.commands.head? = some ⟨code, q, n, ps⟩ <;>
      simp [State.takeFrame, State.respond, State.answered, State.modLink, State.setLink, State.link, h]

/-- A command carried out by a change `f` that leaves the outer state alone, and answered. -/
theorem State.respond_of_outer {s u : State} {code : Byte} {t : Taken} (h : u.outer = (s.takeFrame code t).outer)
    (st : Status) (payload : List Byte) :
    u.respond t.link ⟨st, t.seq, code, payload⟩ =
      State.answered { s with
        patches := u.patches, order := u.order, changes := u.changes, inMap := u.inMap, outMap := u.outMap
        tickets := u.tickets, ports := u.ports, mainAlerts := u.mainAlerts, auxAlerts := u.auxAlerts } code t st payload := by
  obtain ⟨h1, h2, h3, h4, h5, h6, h7, h8, h9, h10, h11⟩ := State.outer_fields h
  simp only [takeFrame_pending, takeFrame_raised, takeFrame_pcLocked, takeFrame_sxLocked, takeFrame_rights,
    takeFrame_auxAddress, takeFrame_spi, takeFrame_i2c, takeFrame_lastServed] at h1 h2 h3 h4 h7 h8 h9 h10 h11
  obtain ⟨l, q, n, ps⟩ := t
  obtain ⟨⟩ := u
  cases l with
  | main =>
    subst h1 h2 h3 h4 h5 h6 h7 h8 h9 h10 h11
    by_cases h : s.mainLink.commands.head? = some ⟨code, q, n, ps⟩ <;>
      simp [State.takeFrame, State.respond, State.answered, State.modLink, State.setLink, State.link, h]
  | aux =>
    subst h1 h2 h3 h4 h5 h6 h7 h8 h9 h10 h11
    by_cases h : s.auxLink.commands.head? = some ⟨code, q, n, ps⟩ <;>
      simp [State.takeFrame, State.respond, State.answered, State.modLink, State.setLink, State.link, h]

/-- A command of a link that may not be served is not taken. -/
theorem hostCommand_not_taken {code : Byte} {t : Taken} {checks : State → List Check} {carry : State → Reply} {s : State}
    (h : ¬ s.Accepts t.link) : hostCommand code t checks carry s = .next s := by
  have : s.mayTake t.link = false := by
    rw [← Bool.not_eq_true, State.mayTake_iff]; exact h
  simp [hostCommand, this]

/-- A refused command is answered with the status of its first failing check, and nothing else changes. -/
theorem hostCommand_refused {code : Byte} {t : Taken} {checks : State → List Check} {carry : State → Reply} {s : State}
    {st : Status} (h : s.Accepts t.link) (hf : firstFailure (checks (s.takeFrame code t)) = some st) :
    hostCommand code t checks carry s = .next (s.answered code t st []) := by
  simp only [hostCommand, (State.mayTake_iff s t.link).mpr h, if_true, hf, State.respond_takeFrame]

/-- A command that passes its checks is carried out and answered. -/
theorem hostCommand_carried {code : Byte} {t : Taken} {checks : State → List Check} {carry : State → Reply} {s : State}
    (h : s.Accepts t.link) (hf : firstFailure (checks (s.takeFrame code t)) = none) :
    hostCommand code t checks carry s =
      .next ((carry (s.takeFrame code t)).state.respond t.link
        ⟨(carry (s.takeFrame code t)).status, t.seq, code, (carry (s.takeFrame code t)).payload⟩) := by
  simp only [hostCommand, (State.mayTake_iff s t.link).mpr h, if_true, hf]

/-- Everything a host command can do: it is not taken, it is refused with a status of one of its checks, or it is carried out
and answered. -/
theorem hostCommand_cases {code : Byte} {t : Taken} {checks : State → List Check} {carry : State → Reply} {s s' : State}
    (h : hostCommand code t checks carry s = .next s') :
    (¬ s.Accepts t.link ∧ s' = s)
    ∨ (s.Accepts t.link ∧ ∃ st, firstFailure (checks (s.takeFrame code t)) = some st ∧ s' = s.answered code t st [])
    ∨ (s.Accepts t.link ∧ firstFailure (checks (s.takeFrame code t)) = none
        ∧ s' = (carry (s.takeFrame code t)).state.respond t.link
            ⟨(carry (s.takeFrame code t)).status, t.seq, code, (carry (s.takeFrame code t)).payload⟩) := by
  by_cases ha : s.Accepts t.link
  · cases hf : firstFailure (checks (s.takeFrame code t)) with
    | some st =>
      rw [hostCommand_refused ha hf] at h
      exact .inr (.inl ⟨ha, st, rfl, by injection h with h; exact h.symm⟩)
    | none =>
      rw [hostCommand_carried ha hf] at h
      exact .inr (.inr ⟨ha, rfl, by injection h with h; exact h.symm⟩)
  · rw [hostCommand_not_taken ha] at h
    exact .inl ⟨ha, by injection h with h; exact h.symm⟩

end Sys2Proof.Machine
end

