-- ==== Sys2Proof/Laws/Flight.lean ====
section
/-! SUPPORT. What the order of one port's events comes to, bit by bit what the links carry, and what the samples of SYNC come
to. -/

namespace Sys2Proof.Machine

/-! ### the order of events (R118, R124, R137) -/

@[simp] theorem State.settle_nil (s : State) : s.settle [] = s := rfl

theorem State.settle_cons (s : State) (e : Event) (es : List Event) : s.settle (e :: es) = (s.settleEvent e).settle es := rfl

theorem State.settle_append (s : State) (es fs : List Event) : s.settle (es ++ fs) = (s.settle es).settle fs :=
  List.foldl_append ..

/-- Where no event before `e` is picked, `e` is the first of the picked ones. -/
theorem takeWhile_filter_eq_nil {P : Event → Bool} {e : Event} (he : P e = true) {l : List Event}
    (h : ∀ x ∈ l.takeWhile (fun x => x ≠ e), P x = false) : (l.filter P).takeWhile (fun x => x ≠ e) = [] := by
  induction l with
  | nil => rfl
  | cons a l ih =>
    by_cases ha : a = e
    · subst ha; rw [List.filter_cons_of_pos he]; simp
    · rw [List.takeWhile_cons_of_pos (by simp [ha])] at h
      rw [List.filter_cons_of_neg (by simp [h a (by simp)])]
      exact ih fun x hx => h x (List.mem_cons_of_mem _ hx)

/-- An event with nothing of its port before it has nothing to wait for. -/
theorem State.ahead_of_foremost {s : State} {e : Event} (h : s.Foremost e) : s.ahead e = [] := by
  have hd : e.isDormancy = false → s.dormancies e.port = [] := fun hn => by
    rw [State.dormancies, List.filter_eq_nil_iff]
    intro x hx
    by_cases hp : x.port = e.port
    · simp [h.2 hn x hx hp]
    · simp [hp]
  have older (hn : e.isDormancy = false) : (s.flight e.port).takeWhile (fun x => x ≠ e) = [] :=
    takeWhile_filter_eq_nil (by simp [hn]) fun x hx => by simp [h.1 x hx]
  cases e with
  | dormancyChange p entered =>
    exact takeWhile_filter_eq_nil (P := fun x => x.port = p && x.isDormancy) (by simp [Event.port, Event.isDormancy])
      fun x hx => by simp [show x.port ≠ p from h.1 x hx]
  | frameStart p entry | take n p f | secondSlotRequest n p f | arrival n p q x | lockedExit p =>
    have h1 := hd rfl
    have h2 := older rfl
    simp only [Event.port] at h1 h2
    simp only [State.ahead, Event.port, h1, h2]
    rfl

/-- Such an event is simply taken. -/
theorem State.takeInOrder_of_foremost {s : State} {e : Event} (h : s.Foremost e) : s.takeInOrder e = s.takeEvent e := by
  rw [State.takeInOrder, State.ahead_of_foremost h, State.settle_nil]

/-- With nothing in flight every event is the foremost. -/
theorem State.foremost_of_raised_nil {s : State} (e : Event) (h : s.raised = []) : s.Foremost e := by
  simp [State.Foremost, h]

/-- The part of a list up to the last pick is empty where nothing is picked. -/
theorem upToLast_eq_nil {must : Event → Bool} {es : List Event} (h : ∀ e ∈ es, must e = false) : upToLast must es = [] := by
  rw [upToLast, List.reverse_eq_nil_iff, List.dropWhile_eq_nil_iff]
  intro e he
  simp [h e (by simpa using he)]

/-- A port of which only arrivals are in flight has nothing to settle. -/
theorem State.settlePort_of_settled {s : State} {p : Port} (h : s.Settled p) : s.settlePort p = s := by
  have h1 : s.dormancies p = [] := by
    rw [State.dormancies, List.filter_eq_nil_iff]
    intro e he
    have := h e he
    cases e <;> simp_all [Event.port, Event.isDormancy, Event.isArrival]
  have h2 : upToLast (fun e => !e.isArrival) (s.flight p) = [] := upToLast_eq_nil fun e he => by
    simp only [State.flight, List.mem_filter, Bool.and_eq_true, decide_eq_true_eq] at he
    simp [h e he.1 he.2.1]
  rw [State.settlePort, h1, h2]; rfl

/-- A port of which nothing is in flight has nothing to settle. -/
theorem State.settleAll_of_clear {s : State} {p : Port} (h : s.Clear p) : s.settleAll p = s := by
  have h1 (P : Event → Bool) : s.raised.filter (fun e => e.port = p && P e) = [] := by
    rw [List.filter_eq_nil_iff]
    intro e he
    simp [h e he]
  rw [State.settleAll, State.dormancies, State.flight, h1, h1 fun e => !e.isDormancy]; rfl

/-- A port whose dues have been answered has nothing more to answer. -/
theorem State.answers_of_answered {s : State} {p : Port} (h : s.Answered p) : s.answers p = s := by
  have h2 : upToLast Event.isRequest (s.flight p) = [] := upToLast_eq_nil fun e he => by
    simp only [State.flight, List.mem_filter, Bool.and_eq_true, decide_eq_true_eq] at he
    exact h e he.1 he.2.1
  rw [State.answers, h2]; rfl

/-! ### what each event does where it is taken -/

section
variable (s : State)

theorem State.takeEvent_frameStart (p : Port) (entry : Bool) :
    s.takeEvent (.frameStart p entry) = (s.consume (.frameStart p entry)).onFrameStart p entry := rfl

theorem State.takeEvent_lockedExit (p : Port) :
    s.takeEvent (.lockedExit p) = (s.consume (.lockedExit p)).onLockedExit p := rfl

theorem State.takeEvent_arrival (n : PatchNo) (p : Port) (q : Slot) (x : Sample) :
    s.takeEvent (.arrival n p q x) = (s.consume (.arrival n p q x)).arrive n p q x := rfl

/-- A dormancy change that is in flight, or tells of the state in which the Patch Controller holds the port, is carried out. -/
theorem State.takeEvent_dormancyChange {p : Port} {entered : Bool}
    (h : .dormancyChange p entered ∈ s.raised ∨ entered = s.pcHolds p) :
    s.takeEvent (.dormancyChange p entered) = (s.consume (.dormancyChange p entered)).changeDormancy p entered := by
  simp only [State.takeEvent]
  exact if_pos h

end

/-! ### bits and bytes (R156, R160) -/

@[simp] theorem byteOfBits_byteBits (b : Byte) : byteOfBits (byteBits b) = b := by revert b; decide +kernel

@[simp] theorem selectorOf_selectorByte (x : Selector) : selectorOf (selectorByte x) = some x := by cases x <;> rfl

@[simp] theorem byteBits_length (b : Byte) : (byteBits b).length = 8 := by simp [byteBits]

theorem State.spiEvents_append (s : State) (a b : List SpiEvent) : s.spiEvents (a ++ b) = (s.spiEvents a).spiEvents b :=
  List.foldl_append ..

theorem State.i2cWires_append (s : State) (a b : List Wire) : s.i2cWires (a ++ b) = (s.i2cWires a).i2cWires b :=
  List.foldl_append ..

/-! ### the samples of SYNC (R105) -/

/-- The edge between two samples is the one the table of R105 marks. -/
theorem Framing.edge_eq_marks (f : Framing) (a b : Bool) : f.edge a b = f.marks a b := by
  cases f <;> cases a <;> cases b <;> rfl

/-- One more sample. -/
theorem Framing.seen_cons (f : Framing) (b c : Bool) (xs : List Bool) :
    f.seen (some b) (c :: xs) = (match f.marks b c, xs with
      | some e, [] => some e
      | some _, _ :: _ => none
      | none, xs => f.seen (some c) xs) := by
  rw [← Framing.edge_eq_marks]; cases xs <;> cases h : f.edge b c <;> simp [Framing.seen, h]

/-- What `Framing.seen` finds after a sample: the last of the samples makes the edge, and none before it makes one. -/
theorem Framing.seen_iff (f : Framing) (kind : SyncEdge) (b : Bool) (xs : List Bool) :
    f.seen (some b) xs = some kind ↔
      (∃ a x y, b :: xs = a ++ [x, y] ∧ f.marks x y = some kind)
      ∧ ∀ a x y t, b :: xs = a ++ x :: y :: t → t ≠ [] → f.marks x y = none := by
  induction xs generalizing b with
  | nil =>
    refine iff_of_false (by simp [Framing.seen]) fun ⟨⟨a, x, y, h, _⟩, _⟩ => ?_
    have := congrArg List.length h
    simp at this
  | cons c xs ih =>
    rw [Framing.seen_cons]
    cases xs with
    | nil =>
      have key : f.seen (some c) [] = none := rfl
      constructor
      · intro h
        refine ⟨⟨[], b, c, rfl, ?_⟩, fun a x y t ht hn => ?_⟩
        · cases hm : f.marks b c <;> simp_all
        · have := congrArg List.length ht
          have : t.length = 0 := by simp at this; omega
          exact absurd (List.eq_nil_of_length_eq_zero this) hn
      · rintro ⟨⟨a, x, y, h, hk⟩, -⟩
        have hl := congrArg List.length h
        have : a = [] := List.eq_nil_of_length_eq_zero (by
          simp only [List.length_append, List.length_cons, List.length_nil] at hl; omega)
        subst this
        simp only [List.nil_append, List.cons.injEq, and_true] at h
        rw [h.1, h.2, hk]
    | cons d ys =>
      cases hm : f.marks b c with
      | some e =>
        refine iff_of_false (by simp) fun h => ?_
        have := h.2 [] b c (d :: ys) rfl (by simp)
        rw [hm] at this; cases this
      | none =>
        simp only []
        rw [ih]
        constructor
        · rintro ⟨⟨a, x, y, h, hk⟩, hall⟩
          refine ⟨⟨b :: a, x, y, by rw [h]; rfl, hk⟩, fun a' x' y' t ht hn => ?_⟩
          cases a' with
          | nil =>
            simp only [List.nil_append, List.cons.injEq] at ht
            rw [← ht.1, ← ht.2.1, hm]
          | cons z a' =>
            simp only [List.cons_append, List.cons.injEq] at ht
            exact hall a' x' y' t ht.2 hn
        · rintro ⟨⟨a, x, y, h, hk⟩, hall⟩
          refine ⟨?_, fun a' x' y' t ht hn => hall (b :: a') x' y' t (by rw [ht]; rfl) hn⟩
          cases a with
          | nil =>
            have := congrArg List.length h
            simp at this
          | cons z a =>
            simp only [List.cons_append, List.cons.injEq] at h
            exact ⟨a, x, y, h.2, hk⟩

/-- What a follower sees is what the statements say it sees. -/
theorem PortRec.sees_iff (r : PortRec) (kind : SyncEdge) (samples : List Bool) :
    r.sees kind samples = true ↔
      r.config.role = .follower ∧ r.state ≠ .off ∧ r.Sees kind samples
      ∧ ((r.state = .locking ∨ r.state = .locked) → r.pos.clocks ≤ samples.length) := by
  have key : r.config.framing.seen r.sync samples = some kind ↔ r.Sees kind samples := by
    rw [PortRec.Sees]
    cases hs : r.sync with
    | some b =>
      rw [Framing.seen_iff]
      constructor
      · rintro ⟨h1, h2⟩
        refine ⟨?_, h1, h2⟩
        rintro rfl
        obtain ⟨a, x, y, h, _⟩ := h1
        have := congrArg List.length h
        simp at this
      · rintro ⟨-, h1, h2⟩
        exact ⟨h1, h2⟩
    | none =>
      cases samples with
      | nil => simp [Framing.seen]
      | cons x xs =>
        rw [show r.config.framing.seen none (x :: xs) = r.config.framing.seen (some x) xs from rfl, Framing.seen_iff]
        constructor
        · rintro ⟨h1, h2⟩
          exact ⟨by simp, h1, h2⟩
        · rintro ⟨-, h1, h2⟩
          exact ⟨h1, h2⟩
  simp only [PortRec.sees, PortRec.samplesSync, Bool.and_eq_true, Bool.or_eq_true, decide_eq_true_eq, key]
  constructor
  · rintro ⟨⟨⟨h1, h2⟩, h3⟩, h4⟩
    exact ⟨h1, h2, h3, fun h => by cases h4 with
      | inl h4 => exact absurd h (by simpa using h4)
      | inr h4 => exact h4⟩
  · rintro ⟨h1, h2, h3, h4⟩
    refine ⟨⟨⟨h1, h2⟩, h3⟩, ?_⟩
    by_cases h : r.state = .locking ∨ r.state = .locked
    · exact .inr (h4 h)
    · exact .inl (by simpa using h)

end Sys2Proof.Machine
end

