-- ==== Sys2Proof/Tests/Slice0.lean ====
section
/-! SUPPORT. Tests: ill-formed terms, one step of each command and event with the outcome the manual gives, and for every
statement with hypotheses a state and operands that meet them. -/

namespace Sys2Proof.Tests

-- One declaration after the other: the witnesses hold many evaluations, and each waiting thread takes its own stack.
set_option Elab.async false

open Sys2Proof.Machine

/-! ## Helpers -/

/-- A taken frame of a link with sequence 7 and these parameters. -/
def cmd (l : Link) (params : List Byte) : Taken := ⟨l, 7, byte params.length, params⟩

def after (a : Answer) : State :=
  match a with
  | .next s => s
  | .fault _ | .refused _ => State.reset

/-- The last answer of a link: status and payload. -/
def answer (l : Link) (a : Answer) : Option (Status × List Byte) :=
  ((after a).link l).responses.getLast?.map fun r => (r.status, r.payload)

/-- The aux link enabled with tag 2 and every port but F granted. -/
def on : State := { State.reset with rights := ⟨true, 2, 0x1F⟩ }

/-- Both views hold the port as LOCKED. -/
def held (s : State) (p : Port) : State := (s.setPc p true).setSx p true

def dst (p : Port) (n : Slot) (x : Phase) : Destination := ⟨p, .one, n, none, x, none, false, 0, none, none⟩

/-- A LIVE SINGLE patch of tag 2 with depth 2 and source port A slot 0. -/
def live (ds : List Destination) : Patch :=
  { Patch.free with state := .live, owner := 2, source := some ⟨.A, 0, none⟩, intake := .opened, depth := 2, dests := ds }

/-- A patch in record `n`, listed, with its source slot and first slots held. -/
def put (s : State) (n : PatchNo) (r : Patch) : State :=
  let s := (s.setPatch n r).listAppend n
  let s := match r.source with
    | some src => s.claimSource n .holder src
    | none => s
  r.dests.foldl (fun s d => if d.phase = .waiting then s.reserveDest n d else s.holdDest n d) s

/-- A WAITING ticket of the main link. -/
def waits (op : Op) (n : PatchNo) (es : List Endpoint) : Ticket :=
  ⟨.waiting, .main, some op, none, some n, [], es.length, es, none, false⟩

/-- A LOCKED follower. -/
def follower : PortRec := { PortRec.powerOn with state := .locked, pos := .counting .first 0, lossTimer := some 0 }

def leader : PortRec :=
  { PortRec.powerOn with
    config := { PortConfig.powerOn with role := .leader }, state := .locked, pos := .counting .first 0
    clock := some ⟨3, .pulse, 256⟩ }

/-- A SPLIT follower of 2 slots of 32 bit clocks (section 11.1), in the first half of its frame. -/
def split : PortRec :=
  { follower with
    config := { PortConfig.powerOn with framing := .split, slots := 2, lossTimeout := 24 }, sync := some false }

/-- Samples of SYNC that rise at the last of `n`. -/
def rise (n : Nat) : List Bool := List.replicate (n - 1) false ++ [true]

/-- Samples of SYNC that fall at the last of `n`. -/
def fall (n : Nat) : List Bool := List.replicate (n - 1) true ++ [false]

/-- A transaction of the main link in which these bytes are clocked in, the selector first. -/
def spi (bytes : List Byte) : List SpiEvent := .select :: clocks (bytes.flatMap byteBits) ++ [.deselect]

/-- On the aux bus: a start condition and the bytes of a write, the address byte first, the host releasing each ninth bit. -/
def i2cWrite (bytes : List Byte) : List Wire := startWires ++ bytes.flatMap fun b => byteWires b true

/-- On the aux bus: a start condition, the address byte of a read, and `n` bytes, each acknowledged but perhaps the last. -/
def i2cRead (n : Nat) (last : Bool) : List Wire :=
  startWires ++ byteWires 0x55 true ++ (List.replicate (n - 1) (byteWires 0xFF false)).flatten ++ byteWires 0xFF (!last)

/-! ## Ill-formed terms -/

theorem test_wf_short_parameters : (Instr.retire ⟨.main, 0, 2, [1]⟩).wf = false := by decide
theorem test_wf_keeps_at_most_36 : (Instr.retire ⟨.main, 0, 40, List.replicate 40 0⟩).wf = false := by decide
theorem test_wf_long_frame : (Instr.retire ⟨.main, 0, 40, List.replicate 36 0⟩).wf = true := by decide
theorem test_wf_unknown_code_is_unknown : (Instr.unknownCode 0x10 (cmd .main [])).wf = false := by decide
theorem test_wf_frame_edge_is_at_a_sample : (Instr.frameStartEdge .A []).wf = false := by decide
theorem test_wf_mid_edge_is_at_a_sample : (Instr.midEdge .A []).wf = false := by decide
theorem test_wf_two_lines_at_once : (Instr.responseRead [⟨true, true⟩] [⟨false, false⟩]).wf = false := by decide

/-! ## Frames (section 8.7) -/

theorem test_bytes_of_retire : frameOfBytes [0x11, 9, 2, 20, 1, 0xFF] = some ⟨0x11, 9, 2, [20, 1]⟩
    ∧ decodeFrame .aux ⟨0x11, 9, 2, [20, 1]⟩ = .retire ⟨.aux, 9, 2, [20, 1]⟩ := by decide
theorem test_truncated_bytes : frameOfBytes [0x11, 9, 2, 20] = none ∧ frameOfBytes [0x11, 9] = none := by decide
theorem test_no_word_spells_a_command : decodeTableWord 8 0x10 = none := by decide

/-- The codes of section 8.7 in its order. -/
theorem test_codes_of_the_table : knownCodes.map (fun c => decodeFrame .main ⟨c, 0, 0, []⟩) =
    ([.install, .retire, .rebind, .addDest, .dropDest, .mute, .unmute, .cancel, .readTicket, .lock, .unlock, .tune,
      .readPatch, .readTable, .readSlotmap, .readCounts, .clearTable, .portSet, .portStart, .portStop, .readPort,
      .readAlerts, .ackAlerts, .setAlertMask, .setAux] : List (Taken → Instr)).map fun c => c ⟨.main, 0, 0, []⟩ := by
  decide

/-! ## Staged edits -/

/-- Section 11.2: ports A and B LOCKED, the table empty. -/
def s112 : State := held (held State.reset .A) .B
def install112 : Taken :=
  cmd .main [0, 0, 1, 3, 2, 1, 0, 0, 0, 0, 0, 0, 0, 1, 0xFF, 2, 0, 0, 3, 0xFF, 1, 0, 0, 0xFF]

theorem test_install_waits :
    let a := exec (.install install112) s112
    answer .main a = some (.accepted, [0, 1, 0, 0xFF])
    ∧ ((after a).ticket 0).awaiting = [.sourceActivation .A, .destActivation ⟨.A, 3⟩, .destActivation ⟨.B, 0⟩]
    ∧ ((after a).patch 0).state = .pending ∧ (after a).inEntry .A 1 = some ⟨.reservation, 0, .single⟩
    ∧ (after a).outEntry .B 0 = ⟨none, some ⟨0, 0⟩⟩ := by decide

/-- Section 11.5: all 48 records LIVE; 12, 30 and 40 of lowest priority, 12 of the aux tag, 30 holding E4. -/
def s115 : State :=
  let r := { live [] with owner := 0, priority := 3, source := none }
  let s : State := { held on .A with patches := Vector.replicate 48 r, order := List.finRange 48, changes := 90 }
  let s := s.setPatch 12 { r with priority := 0, owner := 2 }
  let s := s.setPatch 30 { r with priority := 0, dests := [dst .E 4 .dormant] }
  let s := s.setPatch 40 { r with priority := 0 }
  s.setOut .E 4 ⟨some ⟨30, 4, false⟩, none⟩

theorem test_install_evicts_and_takes :
    let a := exec (.install (cmd .main
      [0, 0, 2, 1, 1, 0, 0, 3, 0, 0, 0, 0, 0, 7, 0xFF, 2, 4, 0, 4, 0xFF, 0, 0, 6, 0xFF])) s115
    answer .main a = some (.accepted, [0, 1, 12, 12])
    ∧ ((after a).patch 30).state = .free ∧ (after a).outEntry .E 4 = ⟨some ⟨12, 4, false⟩, none⟩
    ∧ (after a).order.length = 47 ∧ (after a).changes = 93
    ∧ (after a).mainAlerts.evicted = 1 <<< 30 ∧ (after a).auxAlerts.evicted = 1 <<< 12
    ∧ ((after a).ticket 0).awaiting = [.sourceActivation .A, .destActivation ⟨.A, 6⟩] := by decide +kernel

/-- Chapter 4's drain example: patch 20 with D1 on B slot 0 PRIMED and D2 on C slot 6 UNPRIMED. -/
def sDrain : State :=
  put (held (held (held State.reset .A) .B) .C) 20
    { live [dst .B 0 .primed, dst .C 6 .unprimed] with
      source := some ⟨.A, 3, none⟩, depth := 4, startLevel := 2
      queue := [⟨.single 1, [⟨.B, 0⟩]⟩, ⟨.single 2, [⟨.B, 0⟩]⟩, ⟨.single 3, [⟨.B, 0⟩, ⟨.C, 6⟩]⟩] }

theorem test_retire_drain :
    let a := exec (.retire (cmd .main [20, 1])) sDrain
    answer .main a = some (.accepted, [0, 1, 20, 0xFF])
    ∧ ((after a).ticket 0).awaiting = [.intakeClose .A, .release ⟨.B, 0⟩, .release ⟨.C, 6⟩]
    ∧ ((after a).patch 20).intake = .opened ∧ ((after a).patch 20).queue.length = 3 := by decide

/-- Section 11.3: patch 0 from A slot 1, D1 on A slot 3, D2 on B slot 0; ports A and B LOCKED. -/
def s113 : State :=
  put s112 0 { live [dst .A 3 .primed, dst .B 0 .primed] with source := some ⟨.A, 1, none⟩, depth := 3 }

theorem test_rebind_waits :
    let a := exec (.rebind (cmd .main [0, 1, 1, 0xFF])) s113
    answer .main a = some (.accepted, [0, 1, 0, 0xFF]) ∧ ((after a).ticket 0).awaiting = [.sourceMove .B]
    ∧ (after a).inEntry .B 1 = some ⟨.reservation, 0, .single⟩ ∧ (after a).inEntry .A 1 = some ⟨.holder, 0, .single⟩
    ∧ ((after a).patch 0).pendingSource = some ⟨.B, 1, none⟩ := by decide

/-- Section 9.4's example: aux tag 3, grant of B and C. -/
def s94 : State :=
  let s := { State.reset with rights := ⟨true, 3, 0x06⟩ }
  let s := put s 14 { live [dst .B 0 .dormant, dst .B 1 .dormant] with owner := 3 }
  let s := put s 22 { live [dst .C 5 .dormant] with owner := 0, source := some ⟨.D, 0, none⟩ }
  let s := put s 30 { live [dst .C 7 .dormant] with owner := 0, source := some ⟨.E, 0, none⟩, state := .pending }
  s.setTicket 0 (waits .install 30 [.sourceActivation .E])

theorem test_add_dest_judged :
    ([[14, 0, 2, 0, 9, 0xFF, 0], [14, 0, 5, 0, 2, 0xFF], [14, 0, 2, 2, 2, 3], [40, 0, 2, 2, 2, 3], [14, 1, 2, 0, 7, 0xFF],
      [14, 1, 2, 0, 5, 0xFF], [14, 0, 2, 0, 5, 0xFF], [14, 0, 2, 0, 9, 0xFF]] : List (List Byte)).map
      (fun ps => (answer .aux (exec (.addDest (cmd .aux ps)) s94)).map Prod.fst)
    = [some .badFrame, some .denied, some .badParam, some .notFound, some .busy, some .conflict, some .conflict,
      some .accepted] := by decide +kernel

theorem test_add_dest_applied :
    let s := after (exec (.addDest (cmd .aux [14, 0, 2, 0, 9, 0xFF])) s94)
    s.outEntry .C 9 = ⟨some ⟨14, 9, false⟩, none⟩ ∧ (s.patch 14).dests.length = 3 ∧ s.auxTicketCount = 1 := by decide

/-- Section 11.7: a DROP-DEST whose port is not LOCKED ends at acceptance and keeps its ticket. -/
theorem test_drop_dest_done_at_once :
    let s := (put on 0 (live [dst .B 1 .dormant, dst .B 2 .dormant]))
    let a := exec (.dropDest (cmd .main [0, 1, 1])) s
    answer .main a = some (.accepted, [0, 2, 0, 0xFF]) ∧ (after a).outEntry .B 1 = ⟨none, none⟩
    ∧ (after a).outEntry .B 2 ≠ ⟨none, none⟩ ∧ ((after a).patch 0).dests = [dst .B 2 .dormant]
    ∧ (after a).mainAlerts.ticketDone = 1 := by decide +kernel

/-- Section 11.6: B's mute apply, then A's, in the order of the destinations' ports. -/
theorem test_mute_waits :
    let s := put s112 5 (live [dst .B 0 .primed, dst .A 4 .primed])
    let a := exec (.mute (cmd .main [5])) s
    answer .main a = some (.accepted, [0, 1, 5, 0xFF]) ∧ ((after a).ticket 0).awaiting = [.muteApply .B, .muteApply .A]
    ∧ ((after a).patch 5).dests = (s.patch 5).dests ∧ ((after a).patch 5).muteTarget = true := by decide

/-- R72: off LOCKED ports the target is taken at once. -/
theorem test_unmute_at_once :
    let s := put on 0 { live [{ dst .B 1 .dormant with muted := true }] with muteTarget := true }
    let a := exec (.unmute (cmd .aux [0])) s
    answer .aux a = some (.accepted, [0, 2, 0, 0xFF]) ∧ ((after a).patch 0).dests = [dst .B 1 .dormant]
    ∧ (after a).auxAlerts.ticketDone = 1 := by decide

/-! ## Tickets -/

/-- Chapter 3's fan-out example before the LOCKED exit of B: D1 on B slot 0 WAITING, D2 applied on C. -/
def sFan : State :=
  let s := put (held (held (held State.reset .A) .B) .C) 5
    { live [dst .B 0 .waiting, { dst .C 4 .unprimed with form := .twin, second := some 5 }, dst .E 1 .dormant] with
      state := .pending, source := some ⟨.A, 2, none⟩, queue := [⟨.single 1, [⟨.C, 4⟩]⟩] }
  s.setTicket 0 { waits .install 5 [.destActivation ⟨.B, 0⟩] with total := 4 }

theorem test_cancel_rolls_back :
    let a := exec (.cancel (cmd .main [0])) sFan
    answer .main a = some (.ok, [0]) ∧ (after a).patch 5 = Patch.free ∧ (after a).inEntry .A 2 = none
    ∧ (after a).outEntry .B 0 = ⟨none, none⟩ ∧ (after a).outEntry .C 5 = ⟨none, none⟩
    ∧ ((after a).ticket 0).ending = some .cancelled ∧ ((after a).ticket 0).awaiting = [.destActivation ⟨.B, 0⟩] := by decide +kernel

theorem test_cancel_after_the_exit_is_too_late :
    answer .main (exec (.cancel (cmd .main [0])) (after (exec (.lockedExit .B) sFan))) = some (.tooLate, []) := by decide

/-- The fan-out example's READ-TICKET: state DONE, link MAIN, INSTALL of 5, no mode, no donor, total 4, outcome COMPLETED. -/
theorem test_read_ticket_frees :
    let a := exec (.readTicket (cmd .main [0])) (after (exec (.lockedExit .B) sFan))
    answer .main a = some (.ok, [2, 0, 0, 0, 5, 0xFF, 0, 4, 0, 0]) ∧ (after a).ticket 0 = Ticket.free
    ∧ (after a).mainAlerts.ticketDone = 0 := by decide

/-- Section 11.7: the main link's read of an aux ticket does not free it. -/
theorem test_read_ticket_of_the_other_link :
    let k : Ticket := { waits .rebind 0 [] with link := .aux, state := .done, ending := some .completed }
    (after (exec (.readTicket (cmd .main [4])) (on.setTicket 4 k))).ticket 4 = k := by decide

/-- R94 to R96 under KEEP_LOCKED: one patch freed, one ticket aborted, one patch left in the list. -/
def sClear : State :=
  let s := (State.reset.setPatch 0 { live [] with owner := 1, source := none }).listAppend 0
  let s := (s.setPatch 1 { live [] with locked := true, source := none }).listAppend 1
  s.setTicket 0 (waits .rebind 0 [.sourceMove .A])

theorem test_clear_table_keeps_locked :
    let a := exec (.clearTable (cmd .main [0])) sClear
    answer .main a = some (.ok, [1, 1, 1]) ∧ (after a).order = [1] ∧ ((after a).ticket 0).ending = some .aborted
    ∧ (after a).mainAlerts.evicted = 1 := by decide +kernel

/-! ## Patch settings and reads -/

/-- A patch of record 0, from A slot 0, PRIMED on B slot 1. -/
def s0 : State := put on 0 (live [dst .B 1 .primed])

theorem test_lock : answer .main (exec (.lock (cmd .main [0])) s0) = some (.ok, [])
    ∧ ((after (exec (.lock (cmd .main [0])) s0)).patch 0).locked = true
    ∧ answer .aux (exec (.lock (cmd .aux [0])) s0) = some (.denied, []) := by decide

theorem test_unlock : ((after (exec (.unlock (cmd .main [0])) (s0.modPatch 0 fun r => { r with locked := true }))).patch 0).locked
    = false := by decide

/-- Select {alert threshold}: the other three values are not judged and not taken (R182). -/
theorem test_tune_threshold :
    answer .aux (exec (.tune (cmd .aux [0, 8, 9, 9, 1, 1, 2, 3, 4])) s0) = some (.ok, [0, 0, 0, 1, 0, 0, 0, 0]) := by decide

theorem test_tune_fill :
    answer .main (exec (.tune (cmd .main [0, 5, 3, 9, 1, 1, 2, 3, 4])) s0) = some (.ok, [0, 3, 0, 0, 1, 2, 3, 4]) := by
  decide

theorem test_read_patch : answer .aux (exec (.readPatch (cmd .aux [0])) s0) = some (.ok,
    [2, 2, 0, 0, 0, 0, 0, 0xFF, 0xFF, 0xFF, 0xFF, 1, 2, 1, 0, 0, 0, 0, 0, 0, 0, 0, 0, 0, 0xFF, 0, 1,
      1, 0, 1, 0xFF, 3, 0, 0, 0]) := by decide

theorem test_read_table : answer .main (exec (.readTable (cmd .main [0])) s0) = some (.ok, [1, 1, 1, 0, 2, 2])
    ∧ answer .main (exec (.readTable (cmd .main [1])) s0) = some (.ok, [1, 1, 0]) := by decide

theorem test_read_slotmap_output :
    ((answer .main (exec (.readSlotmap (cmd .main [1, 1])) s0)).map fun x => (x.2.take 8, x.2.length))
      = some ([8, 0, 0xFF, 0xFF, 0, 0, 0xFF, 0], 50) := by decide

theorem test_read_slotmap_input :
    ((answer .main (exec (.readSlotmap (cmd .main [0, 0])) s0)).map fun x => (x.2.take 6, x.2.length))
      = some ([8, 0, 1, 0, 0, 0xFF], 34) := by decide

/-- Section 10.6's example: patch 6, D1 at 3 underruns, D2 at 2. -/
def s106 : State :=
  put (held State.reset .A) 6 { live [{ dst .B 0 .primed with underruns := 3 }, { dst .C 0 .primed with underruns := 2 }] with
    owner := 0, threshold := 2 }

theorem test_read_counts_clears :
    let a := exec (.readCounts (cmd .main [6, 1])) s106
    answer .main a = some (.ok, [6, 0, 0, 2, 1, 0, 0, 3, 2, 0, 0, 2])
    ∧ ((after a).patch 6).dests.map Destination.underruns = [0, 0] := by decide

/-- R170: the code is echoed as received. -/
theorem test_unknown_code :
    (after (exec (.unknownCode 0x99 (cmd .main []))  State.reset)).mainLink.responses = [⟨.badFrame, 7, 0x99, []⟩] := by
  decide

/-! ## Ports, alerts and the aux link -/

/-- Section 11.1 step 4. -/
def portSetB : Taken := cmd .main [1, 1, 1, 2, 32, 24, 1, 0, 0, 0, 0, 24, 0]

theorem test_port_set :
    ((after (exec (.portSet portSetB) State.reset)).port .B).config = ⟨.follower, .split, 2, 32, 24, 1, 0, 24, 0⟩
    ∧ answer .main (exec (.portSet portSetB) (State.reset.setPort .B follower)) = some (.badState, []) := by decide

/-- Section 11.1: port A configured as a leader. -/
def sLeader : State :=
  after (exec (.portSet (cmd .main [0, 0, 0, 8, 32, 24, 1, 0, 0, 0, 0, 48, 0])) State.reset)

/-- R137: an arrival of before the entry finds intake SHED, which the recovery test of the entry then opens. -/
theorem test_port_start_leader :
    let a := exec (.portStart (cmd .main [0])) sLeader
    let s := { put sLeader 0 { live [dst .B 1 .unprimed] with intake := .shed } with raised := [.arrival 0 .A 0 (.single 1)] }
    let r := (after (exec (.portStart (cmd .main [0])) s)).patch 0
    answer .main a = some (.ok, [3]) ∧ (after a).mainAlerts.portChange = 1 ∧ (after a).mainAlerts.line = true
    ∧ (after a).pcHolds .A = true ∧ ((after a).port .A).clock = some ⟨0, .pulse, 256⟩ ∧ r.intake = .opened ∧ r.queue = [] := by
  decide +kernel

theorem test_port_start_follower : answer .main (exec (.portStart (cmd .main [1])) State.reset) = some (.ok, [1]) := by
  decide

/-- R102: the answer carries the state before the command; the port is OFF and its destinations are DORMANT. -/
theorem test_port_stop :
    let s := (held s0 .B).setPort .B { follower with frameErrors := 4 }
    let a := exec (.portStop (cmd .main [1])) s
    answer .main a = some (.ok, [3]) ∧ ((after a).port .B).state = .off ∧ ((after a).port .B).frameErrors = 4
    ∧ ((after a).patch 0).dests = [dst .B 1 .dormant] ∧ (after a).mainAlerts.portChange = 2 := by decide +kernel

theorem test_read_port :
    answer .main (exec (.readPort (cmd .main [0, 0])) (after (exec (.portStart (cmd .main [0])) sLeader)))
      = some (.ok, [0, 0, 8, 32, 24, 1, 0, 0, 0, 0, 48, 0, 3, 0, 0, 0, 0, 0xFF]) := by decide

/-- PORT_CHANGE of A and B posted to the main link. -/
def sPorts : State := State.reset.setAlerts .main { Alerts.powerOn with portChange := 3 }

theorem test_read_alerts : answer .main (exec (.readAlerts (cmd .main [])) sPorts)
    = some (.ok, [0, 0, 0, 0, 0, 0, 0, 0, 0, 0, 0, 0, 0, 0, 3, 0, 0, 1]) := by decide

theorem test_ack_alerts : answer .main (exec (.ackAlerts (cmd .main (List.replicate 14 0 ++ [3, 0]))) sPorts)
      = some (.ok, List.replicate 16 0)
    ∧ answer .main (exec (.ackAlerts (cmd .main ([0x10, 0] ++ List.replicate 14 0))) sPorts) = some (.badParam, []) := by
  decide

/-- Section 10.6: TROUBLE masked releases the line and keeps the member. -/
theorem test_set_alert_mask :
    let s := State.reset.setAlerts .main { Alerts.powerOn with trouble := 1 <<< 6 }
    let t := after (exec (.setAlertMask (cmd .main [4])) s)
    s.alertLine .main = true ∧ t.alertLine .main = false ∧ t.mainAlerts.trouble = 1 <<< 6 := by decide

/-- Section 11.1 step 7. -/
theorem test_set_aux_enables :
    (after (exec (.setAux (cmd .main [1, 2, 6])) State.reset)).rights = ⟨true, 2, 6⟩ := by decide

/-- R63: at the disable an aux DONE ticket is freed and a WAITING one becomes an orphan. -/
theorem test_set_aux_disables :
    let k := { waits .rebind 0 [.sourceMove .A] with link := .aux }
    let s := (on.setTicket 0 k).setTicket 1 { k with state := .done, ending := some .completed }
    let t := after (exec (.setAux (cmd .main [0, 2, 6])) s)
    t.ticket 0 = { k with orphan := true } ∧ t.ticket 1 = Ticket.free := by decide +kernel

/-! ## Transports (section 8.6's example) -/

def fr (q : Byte) : Frame := ⟨0x50, q, 0, []⟩
def rs (q : Byte) : Response := ⟨.ok, q, 0x50, []⟩

/-- Four commands and four responses on the aux link, last-refused FULL. -/
def s86 : State := { on with auxLink := ⟨[fr 5, fr 6, fr 7, fr 8], [rs 1, rs 2, rs 3, rs 4], some .full, []⟩ }

theorem test_send : (after (exec (.send (spi [1, 0x50, 1, 0])) State.reset)).mainLink.commands = [fr 1]
    ∧ (after (exec (.send (spi [1, 0x11, 1, 2, 0])) State.reset)).mainLink = ⟨[], [], some .truncated, List.replicate 40 true⟩ := by
  decide +kernel
theorem test_unknown_selector : (after (exec (.send (spi [0x81, 0x50, 1, 0])) State.reset)).mainLink.commands = [] := by
  decide +kernel
theorem test_fetch_empty_marker :
    (after (exec (.fetch (spi (2 :: List.replicate 9 0))) State.reset)).mainLink.sent
      = ([0xFF, 0, 0, 0, 4, 4, 0, 0, 0, 0xFF] : List Byte).flatMap byteBits := by decide +kernel
theorem test_fetch_removes_whole_response :
    let s : State := { on with mainLink := ⟨[], [rs 1, rs 2], none, []⟩ }
    (after (exec (.fetch (spi [2, 0, 0, 0, 0])) s)).mainLink.responses = [rs 2]
    ∧ (after (exec (.fetch (spi [2, 0, 0, 0])) s)).mainLink.responses = [rs 1, rs 2] := by decide +kernel
theorem test_status :
    (after (exec (.status (spi [3, 0, 0, 0, 0, 0])) State.reset)).mainLink.sent
      = ([0xFF, 4, 0, 0, 0, 0xFF] : List Byte).flatMap byteBits := by decide +kernel
theorem test_aux_write_full :
    let s := after (exec (.auxWriteFirstByte (i2cWrite [0x54, 0x50])) { s86 with auxLink := { s86.auxLink with lastRefused := none } })
    s.auxLink.lastRefused = some .full ∧ s.auxLink.sent.getLast? = some true := by decide +kernel
theorem test_aux_write_end :
    let s := after (exec (.auxWriteFirstByte (i2cWrite [0x54, 0x50]))
      { s86 with auxLink := { s86.auxLink with commands := [fr 6, fr 7, fr 8] } })
    let t := after (exec (.auxWriteEnd (byteWires 9 true ++ byteWires 0 true ++ stopWires)) s)
    t.auxLink.commands = [fr 6, fr 7, fr 8, fr 9] ∧ t.auxLink.lastRefused = none := by decide +kernel
/-- An empty write and a repeated start make the read a status read: 3 of 4 places taken, 4 responses, FULL, no alert. -/
theorem test_status_read :
    ((after (exec (.statusRead (i2cWrite [0x54] ++ i2cRead 4 false))
        { s86 with auxLink := { s86.auxLink with commands := [fr 6, fr 7, fr 8] } })).auxLink.sent.drop 9)
      = ([1, 4, 1, 0] : List Byte).flatMap fun b => byteBits b ++ [true] := by decide +kernel
theorem test_response_read :
    (after (exec (.responseRead (i2cRead 4 true) []) s86)).auxLink.responses = [rs 2, rs 3, rs 4]
    ∧ (after (exec (.responseRead (i2cRead 4 false) []) s86)).auxLink.responses = s86.auxLink.responses := by decide +kernel
/-- R160: another address is not acknowledged. -/
theorem test_other_address :
    (after (exec (.auxWriteFirstByte (i2cWrite [0x56])) on)).auxLink.sent = List.replicate 9 true
    ∧ (after (exec (.auxWriteFirstByte (i2cWrite [0x54])) on)).auxLink.sent = List.replicate 8 true ++ [false] := by
  decide +kernel
theorem test_arbiter_alternates :
    let s : State := { s86 with mainLink := ⟨[fr 1], [], none, []⟩, auxLink := { s86.auxLink with responses := [] } }
    s.arbiterLink = some .aux ∧ { s with lastServed := .aux }.arbiterLink = some .main
    ∧ { s86 with mainLink := ⟨[fr 1], [], none, []⟩ }.arbiterLink = some .main ∧ s86.arbiterLink = none := by decide
theorem test_power_on_samples_the_address :
    (after (exec (.powerOnReset 3) s0)).auxAddress = 0x2D ∧ (after (exec (.powerOnReset 3) s0)).order = [] := by
  decide +kernel

/-! ## Framing (chapter 5's example: a follower of frame length 256) -/

theorem test_frame_start_edge_locks :
    let s := after (exec (.frameStartEdge .C (rise 256)) (State.reset.setPort .C { follower with state := .locking, good := 1 }))
    (s.port .C).state = .locked ∧ (s.port .C).good = 0 ∧ s.raised = [.frameStart .C true] ∧ s.mainAlerts.portChange = 4 := by
  decide +kernel
theorem test_frame_start_edge_third_error :
    let s := after (exec (.frameStartEdge .C (rise 50))
      (State.reset.setPort .C { follower with consecutive := 2, frameErrors := 3 }))
    (s.port .C).state = .locking ∧ (s.port .C).frameErrors = 4 ∧ (s.port .C).consecutive = 0
    ∧ s.raised = [.lockedExit .C] := by decide
/-- Section 11.1: a mid edge of port B at 32 is on time. -/
theorem test_mid_edge_on_time :
    (((after (exec (.midEdge .B (rise 32)) (State.reset.setPort .B split))).port .B).pos,
      ((after (exec (.midEdge .B (rise 31)) (State.reset.setPort .B split))).port .B).frameErrors) = (.counting .second 0, 1) := by
  decide
theorem test_leader_frame_start :
    (after (exec (.leaderFrameStart .A) (State.reset.setPort .A leader))).raised = [.frameStart .A false] := by decide
/-- Section 11.2's frame start of B: D2 becomes UNPRIMED and holds B0; the two endpoints on A stay. -/
theorem test_frame_start_activates :
    let s := after (exec (.frameStart .B false) (after (exec (.install install112) s112)))
    s.outEntry .B 0 = ⟨some ⟨0, 0, false⟩, none⟩ ∧ (s.ticket 0).awaiting = [.sourceActivation .A, .destActivation ⟨.A, 3⟩]
    ∧ (s.patch 0).dests.map Destination.phase = [.waiting, .unprimed] := by decide +kernel
/-- The drain example's frame start of C once intake is CLOSED: D2 is released, its owed entries with it. -/
theorem test_frame_start_drains :
    let s := (sDrain.modPatch 20 fun r => { r with state := .retiring, intake := .closed }).setTicket 0
      { waits .retire 20 [.release ⟨.B, 0⟩, .release ⟨.C, 6⟩] with mode := some .drain }
    let c := after (exec (.frameStart .C false) s)
    ((c.patch 20).dests = [dst .B 0 .primed] ∧ (c.patch 20).queue.map Entry.owed = [[⟨.B, 0⟩], [⟨.B, 0⟩], [⟨.B, 0⟩]])
    ∧ (after (exec (.frameStart .B false) c)).ticket 0 = c.ticket 0 := by decide +kernel
/-- The fan-out example's LOCKED exit of B: D1 becomes DORMANT, the ticket completes, the patch is LIVE. -/
theorem test_locked_exit_applies :
    let s := after (exec (.lockedExit .B) sFan)
    (s.patch 5).state = .live ∧ (s.patch 5).dests.map Destination.phase = [.dormant, .unprimed, .dormant]
    ∧ s.outEntry .B 0 = ⟨some ⟨5, 0, false⟩, none⟩ ∧ (s.ticket 0).ending = some .completed
    ∧ s.mainAlerts.ticketDone = 1 ∧ s.raised = [.dormancyChange .B false] := by decide

/-- Chapter 2's example before arrival v4: patch 9 with D1 on B slot 0, D2 on C slot 4, D3 on D slot 2. -/
def sQueue : State :=
  put (held State.reset .A) 9 { live [dst .B 0 .primed, dst .C 4 .primed, dst .D 2 .unprimed] with
    depth := 3, startLevel := 2, overflow := .keepNew
    queue := [⟨.single 1, [⟨.C, 4⟩]⟩, ⟨.single 2, [⟨.C, 4⟩, ⟨.D, 2⟩]⟩, ⟨.single 3, [⟨.B, 0⟩, ⟨.C, 4⟩, ⟨.D, 2⟩]⟩] }
def v4 : State := after (exec (.arrival 9 .A 0 (.single 4)) sQueue)

theorem test_arrival_drops_the_head :
    (v4.patch 9).queue = [⟨.single 2, [⟨.C, 4⟩, ⟨.D, 2⟩]⟩, ⟨.single 3, [⟨.B, 0⟩, ⟨.C, 4⟩, ⟨.D, 2⟩]⟩,
      ⟨.single 4, [⟨.B, 0⟩, ⟨.C, 4⟩, ⟨.D, 2⟩]⟩] ∧ (v4.patch 9).overflows = 1 := by decide
/-- D3 owes 3, at least 2: it primes and takes v2 in the same due. -/
theorem test_take_primes :
    let s := after (exec (.take 9 .D 2) (v4.setPort .D follower))
    ((s.patch 9).queue.map Entry.owed) = [[⟨.C, 4⟩], [⟨.B, 0⟩, ⟨.C, 4⟩, ⟨.D, 2⟩], [⟨.B, 0⟩, ⟨.C, 4⟩, ⟨.D, 2⟩]]
    ∧ ((s.patch 9).dests.map Destination.phase) = [.primed, .primed, .primed] := by decide
/-- Section 10.6: D2's second underrun reaches the threshold 2 and posts TROUBLE. -/
theorem test_take_underrun_posts :
    let s := s106.modPatch 6 fun r => r.modDest ⟨.C, 0⟩ fun d => { d with underruns := 1 }
    let t := after (exec (.take 6 .C 0) s)
    (t.patch 6).underrunsOf ⟨.C, 0⟩ = 2 ∧ t.mainAlerts.trouble = 1 <<< 6 := by decide
/-- Port D leaves LOCKED: D3 becomes DORMANT and leaves every owed set. -/
theorem test_dormancy_change :
    let s := after (exec (.dormancyChange .D false) v4)
    ((s.patch 9).queue.map Entry.owed) = [[⟨.C, 4⟩], [⟨.B, 0⟩, ⟨.C, 4⟩], [⟨.B, 0⟩, ⟨.C, 4⟩]]
    ∧ ((s.patch 9).dests.map Destination.phase) = [.primed, .primed, .dormant] := by decide +kernel
/-- The fan-out example: D2 is TWIN, so the value of C4 is held for C5. -/
theorem test_second_slot_request :
    let s := (sFan.setPort .C { follower with dueSlot := some 5 }).modPatch 5 fun r => r.modDest ⟨.C, 4⟩ fun d => { d with hold := some 0x12345678 }
    let t := after (exec (.secondSlotRequest 5 .C 4) s)
    (t.port .C).dout = .carrying 0x12345600 ∧ ((t.patch 5).dest? ⟨.C, 4⟩).map Destination.hold = some none := by decide

/-- R114 with the timeout of 24 units of section 11.1. -/
theorem test_loss_tick :
    let s (k : Nat) := after (exec .lossTick (State.reset.setPort .B { split with lossTimer := some k }))
    ((s 22).port .B).lossTimer = some 23 ∧ ((s 23).port .B).state = .lost ∧ (s 23).raised = [.lockedExit .B] := by decide
theorem test_loss_expiry :
    let s := after (exec (.lossExpiry .C) (State.reset.setPort .C { follower with state := .locking, frameErrors := 4 }))
    (s.port .C).state = .lost ∧ (s.port .C).frameErrors = 4 ∧ s.raised = [] := by decide

/-! ## Slots -/

/-- R126's table: the 24-bit sample 0x123456 is sent by a port of sample width 16 as 0x1234, then zero. -/
theorem test_lane_of_a_narrow_port :
    let c := { PortConfig.powerOn with slotWidth := 24, sampleWidth := 16 }
    let r : PortRec := { follower with config := c, dueSlot := some 1, dout := .carrying (keepTop 16 0x12345600) }
    ((List.range 24).all fun i => r.laneLevel .first (25 + i) == (0x123400 : BitVec 24).getLsbD (23 - i)) = true
    ∧ r.laneLevel .first 0 = false := by decide
/-- R123 under data delay 1: the tail bit of the last slot falls on the bit clock after the frame length, then a gap. -/
theorem test_span_at_tail :
    PortConfig.powerOn.spanAt .first 256 = some (7, 31) ∧ PortConfig.powerOn.spanAt .first 257 = none
    ∧ split.config.spanAt .second 1 = some (1, 0) := by decide
/-- The same after an on-time edge at exactly the frame length: bit clock 0 of the new frame carries that last bit. -/
theorem test_tail_bit :
    let r : PortRec :=
      { follower with config := { PortConfig.powerOn with sampleWidth := 32 }, dueSlot := some 7, dout := .carrying 1 }
    let r' (k : Nat) := (after (exec (.frameStartEdge .C (rise k)) (State.reset.setPort .C r))).port .C
    (r' 256).laneLevel .first 0 = true ∧ (r' 257).laneLevel .first 0 = false ∧ (r' 256).laneLevel .first 1 = false := by
  decide +kernel
/-- R124: a second-half slot does not come due before the mid edge, nor a first-half slot after an early one. -/
theorem test_slot_events_of_a_cut_half :
    let s := State.reset.setPort .B split
    let t := after (exec (.midEdge .B (rise 20)) s)
    after (exec (.slotDue .B 1) s) = s ∧ (t.port .B).pos = .counting .second 0
    ∧ after (exec (.slotComplete .B 0 5) t) = t := by decide +kernel

/-- R125, R127: of 32 bits the first 24 are kept, and the arrival carries the slot's holder. -/
theorem test_slot_complete :
    (after (exec (.slotComplete .A 0 0x12345678) (s0.setPort .A leader))).raised
      = [.arrival 0 .A 0 (.single 0x12345600)] := by decide
theorem test_slot_complete_left :
    ((after (exec (.slotComplete .A 1 0x12345678)
      ((s0.setPort .A leader).setIn .A 1 (some ⟨.holder, 0, .left⟩)))).port .A).latch = some ⟨0, 0x12345600⟩ := by decide
/-- R129: the entry's holder makes a take; an unclaimed entry sends the idle word. -/
theorem test_slot_due :
    let s := s0.setPort .B { follower with config := { PortConfig.powerOn with idleWord := 0xAABBCCDD } }
    (after (exec (.slotDue .B 1) s)).raised = [.take 0 .B 1]
    ∧ ((after (exec (.slotDue .B 2) s)).port .B).dout = .carrying 0xAABBCC00 := by decide

/-! ## Witnesses: for each statement with hypotheses, operands and a state that meet them -/

theorem accepts_of (s : State) (l : Link) (h : s.mayTake l = true) : s.Accepts l := by
  have h' := h
  simp only [State.mayTake, Bool.and_eq_true, decide_eq_true_eq] at h'
  exact ⟨h'.1, fun e => by subst e; simpa using h'.2⟩

/-- An answer is a next state. -/
def goesOn (a : Answer) : Bool :=
  match a with
  | .next _ => true
  | .fault _ | .refused _ => false

theorem next_of {a : Answer} (h : goesOn a = true) : ∃ s', a = .next s' := by
  cases a with
  | next s => exact ⟨s, rfl⟩
  | fault f => cases h
  | refused r => cases h

theorem all_some {α : Type} {o : Option α} {P : α → Prop} [DecidablePred P] (h : o.all (fun a => decide (P a)) = true) :
    ∀ a, o = some a → P a := by
  rintro a rfl
  simpa using h

theorem foremost_of (s : State) (e : Event) (h : (∀ x ∈ s.raised.takeWhile (fun x => x ≠ e), x.port ≠ e.port)
    ∧ (e.isDormancy = false → ∀ x ∈ s.raised, x.port = e.port → x.isDormancy = false)) : s.Foremost e := h

theorem settled_of (s : State) (p : Port) (h : ∀ e ∈ s.raised, e.port = p → e.isArrival = true) : s.Settled p := h

theorem answered_of (s : State) (p : Port) (h : ∀ e ∈ s.raised, e.port = p → e.isRequest = false) : s.Answered p := h

theorem witness_StepWithoutCommand_event :
    let s : State := { on with raised := [.lockedExit .F] }
    s.pending = [] ∧ s.raised = .lockedExit .F :: [] := by decide
theorem witness_StepWithoutCommand_command :
    let s : State := { on with auxLink := ⟨[fr 1], [], none, []⟩ }
    s.pending = [] ∧ s.raised = [] ∧ s.arbiterCommand = some (.readAlerts ⟨.aux, 1, 0, []⟩) := by decide
theorem witness_StepWithoutCommand_idle :
    on.pending = [] ∧ on.raised = [] ∧ on.arbiterCommand = none := by decide

theorem witness_DecodeOfBytesOfCommand_longest :
    let i : Instr := .unknownCode 0xFF ⟨.aux, 0xFF, 0xFF, List.replicate 36 1⟩
    let params : List Byte := List.replicate 255 1
    i.wf = true ∧ encodeFrame i = some (.aux, ⟨0xFF, 0xFF, 0xFF, List.replicate 36 1⟩)
    ∧ params.length = (0xFF : Byte).toNat ∧ params.take 36 = List.replicate 36 1 := by decide +kernel
theorem witness_DecodeOfBytesOfCommand_shortest :
    let i : Instr := .readAlerts ⟨.main, 0, 0, []⟩
    i.wf = true ∧ encodeFrame i = some (.main, ⟨0x50, 0, 0, []⟩) ∧ ([] : List Byte).length = (0 : Byte).toNat := by decide
theorem witness_FieldsRoundTrip : (0 : Byte) ≠ 0x01 ∧ (0 : Byte) ≠ 0x02 ∧ (4 : Byte) ≠ 0x03 := by decide

/-! ### The laws -/

theorem witness_StepKeepsLinksFit :
    let s : State := { s86 with i2c := busAt true (.writing []), pending := [.auxWriteFirstByte (byteWires 0x30 true)] }
    LinksFit s ∧ ∃ s', step s = .next s' :=
  ⟨⟨by decide, by decide, by decide, by decide, fun h => absurd h (by decide), fun h => absurd h (by decide),
    fun h => absurd h (by decide), fun h => absurd h (by decide)⟩, next_of (by decide +kernel)⟩
theorem witness_StepKeepsQueuesFit :
    let s : State := { sQueue with pending := [.arrival 9 .A 0 (.single 4)] }
    QueuesFit s ∧ ∃ s', step s = .next s' :=
  ⟨fun n => ⟨by revert n; decide +kernel, by revert n; decide +kernel, by revert n; decide +kernel,
    by revert n; decide +kernel, by revert n; decide +kernel, by revert n; decide +kernel, by revert n; decide +kernel,
    by revert n; decide +kernel, by revert n; decide +kernel, by revert n; decide +kernel⟩, next_of (by decide)⟩
/-- A LOCKED exit of B on its way, its dormancy change not yet taken. -/
theorem witness_StepKeepsQueuesFit_phases :
    let s : State :=
      { (held (held (held sQueue .B) .C) .D).setPc .B false with
        raised := [.dormancyChange .B false], pending := [.dormancyChange .B false] }
    PhasesFit s ∧ ∃ s', step s = .next s' := by
  refine ⟨⟨by decide +kernel, fun p => by cases p <;> decide, fun p es e h => ?_⟩, next_of (by decide +kernel)⟩
  cases p
  case B =>
    have h' : [Event.dormancyChange .B false] = es ++ [e] := h
    have := (List.append_inj_right' (s₁ := []) h' rfl)
    rw [← List.head_eq_of_cons_eq this]; decide
  all_goals exact absurd (congrArg List.length (show [] = es ++ [e] from h)) (by simp)

/-- Which forms and second slots a kind has (R6). -/
def formOk (d : Destination) : Kind → Bool
  | .single => match d.form, d.second with
    | .one, none => true
    | .twin, some q => d.first < q
    | _, _ => false
  | .pair => match d.form, d.second with
    | .left, none | .right, none => true
    | .both, some q => d.first < q
    | _, _ => false

theorem tableFits_of (s : State) (h : s.order.Nodup ∧ (∀ n : PatchNo, n ∈ s.order ↔ (s.patch n).state ≠ .free)
    ∧ (∀ n : PatchNo, (s.patch n).state = .free → s.patch n = Patch.free) ∧ (∀ n : PatchNo, (s.patch n).dests.length ≤ 4)
    ∧ (∀ n : PatchNo, ∀ d ∈ (s.patch n).dests, formOk d (s.patch n).kind = true)
    ∧ (∀ n : PatchNo, ((s.patch n).source.toList ++ (s.patch n).pendingSource.toList).all
      fun src => sourceFits (s.patch n).kind src.left src.right)
    ∧ ∀ p ∈ allPorts, ∀ q, (s.inEntry p q).all (fun (c : InClaim) => decide ((s.patch c.patch).state ≠ .free
        ∧ (c.kind = .holder → ∃ src ∈ (s.patch c.patch).source, src.port = p ∧ (q, c.role) ∈ src.roles))) = true
      ∧ (s.outEntry p q).holder.all (fun (h : OutHolder) => decide (∃ d ∈ (s.patch h.patch).dests, d.name = ⟨p, h.first⟩ ∧ d.phase ≠ .waiting))
        = true
      ∧ (s.outEntry p q).resv.all (fun (v : OutResv) => decide ((s.patch v.patch).state ≠ .free)) = true) : TableFits s where
  once := h.1
  listed := h.2.1
  free := h.2.2.1
  count := h.2.2.2.1
  inClaims p q c hc := (all_some (h.2.2.2.2.2.2 p (by cases p <;> decide) q).1 c hc).1
  inHolders p q c hc hk := (all_some (h.2.2.2.2.2.2 p (by cases p <;> decide) q).1 c hc).2 hk
  holders p q := all_some (h.2.2.2.2.2.2 p (by cases p <;> decide) q).2.1
  reservations p q := all_some (h.2.2.2.2.2.2 p (by cases p <;> decide) q).2.2
  sources n src hs := by
    have := List.all_eq_true.1 (h.2.2.2.2.2.1 n) src (by rcases hs with hs | hs <;> simp [hs])
    revert this
    cases (s.patch n).kind <;> cases src.right <;> simp [sourceFits]
  forms n d hd := by
    have := h.2.2.2.2.1 n d hd
    revert this
    cases (s.patch n).kind <;> cases hf : d.form <;> cases hs : d.second <;> simp [formOk, hf, hs]

theorem namesFit_of (s : State) (h : ∀ n k k', (s.ticket k).names n = true → (s.ticket k').names n = true → k = k')
    (h' : ∀ k n, (s.ticket k).state = .waiting → (s.ticket k).subject = some n → n ∉ (s.ticket k).donors)
    (h'' : ∀ k m, (s.ticket k).state = .waiting →
      (s.ticket k).donors.contains m = (s.ticket k).awaiting.any fun e => e.takesFrom m) : NamesFit s :=
  ⟨h, h', fun k m hk => by rw [← List.any_eq_true, ← h'' k m hk, List.contains_iff_mem]⟩

/-- One patch of record 0 in the table. -/
def sTable : State := put State.reset 0 (live [dst .B 1 .dormant])

theorem witness_StepKeepsTableFits :
    let s : State := { sTable with pending := [.retire (cmd .main [0, 0])] }
    TableFits s ∧ ∃ s', step s = .next s' := ⟨tableFits_of _ (by decide +kernel), next_of (by decide +kernel)⟩
theorem witness_StepKeepsTicketsFit :
    let s : State := { sFan with pending := [.lockedExit .B] }
    TicketsFit s ∧ ∃ s', step s = .next s' :=
  ⟨⟨fun t => ⟨by revert t; decide +kernel, by revert t; decide +kernel, by revert t; decide +kernel,
      by revert t; decide +kernel, by revert t; decide +kernel, by revert t; decide +kernel⟩,
    by decide +kernel, by decide +kernel⟩, next_of (by decide)⟩

/-- Patch 0 to add TWIN slots 1 and 2 of port C to, of which patch 1 holds slot 1. -/
def sTake : State := held (put s0 1 { live [dst .C 1 .primed] with source := some ⟨.D, 0, none⟩ }) .C

/-- The edit taken: patch 0 waits for the transfer of C1. -/
def sTaking : State := after (exec (.addDest (cmd .aux [0, 1, 2, 1, 1, 2])) sTake)

theorem sTaking_waits : (sTaking.ticket 0).awaiting = [.transfer ⟨.C, 1⟩ 1 1]
    ∧ (∀ k, (sTaking.ticket k).state = .waiting → k = 0)
    ∧ ∀ n, (sTaking.ticket 0).subject = some n → n = 0 := by decide +kernel

/-- Every law of the tables at once, with a transfer that waits. -/
theorem witness_StepKeepsTableFits_edits :
    let s : State := { sTaking with pending := [.frameStart .C false] }
    TableFits s ∧ TicketsFit s ∧ NamesFit s ∧ EditsFit s ∧ ∃ s', step s = .next s' := by
  have w := sTaking_waits
  refine ⟨tableFits_of _ (by decide +kernel), ⟨fun t => ⟨?_, ?_, ?_, ?_, ?_, ?_⟩, by decide +kernel, by decide +kernel⟩,
    namesFit_of _ (by decide +kernel) (by decide +kernel) (by decide +kernel), ?_, next_of (by decide +kernel)⟩
  any_goals (revert t; decide +kernel)
  · refine ⟨by decide +kernel, by decide +kernel, by decide +kernel, ?_, by decide +kernel, ?_, by decide +kernel,
      by decide +kernel, ?_, ?_, ?_, fun n d hd hw => ?_, fun k n hk hn e he nm hb => ?_, fun k n nm m f hk hn he => ?_,
      fun p q => ?_, by decide +kernel, ?_, ?_, fun n d hd => ?_, by decide +kernel⟩
    · simp only [State.WaitsFor]; decide +kernel
    · simp only [State.WaitsFor]; decide +kernel
    · simp only [State.WaitsFor]; decide +kernel
    · rintro k n ⟨hk, ho, -⟩; obtain rfl := w.2.1 k hk; exact absurd ho (by decide)
    · simp only [State.WaitsFor]; decide +kernel
    · have : n = 0 ∧ d.name = ⟨.C, 1⟩ := by revert n d; decide +kernel
      obtain ⟨rfl, hd'⟩ := this
      exact ⟨0, by decide, by decide, _, List.mem_singleton.2 rfl, hd'.symm⟩
    · obtain rfl := w.2.1 k hk
      obtain rfl := w.2.2 n hn
      have he' : _ ∈ (sTaking.ticket 0).awaiting := he
      rw [w.1] at he'
      obtain rfl := List.mem_singleton.1 he'
      obtain rfl : (⟨.C, 1⟩ : DestName) = nm := hb
      exact ⟨{ dst .C 1 .waiting with form := .twin, second := some 2 }, by decide, by decide, by decide, fun q hq =>
        ⟨by revert q; decide +kernel, all_some (by revert q; decide +kernel)⟩⟩
    · obtain rfl := w.2.1 k hk
      obtain rfl := w.2.2 n hn
      have he' : _ ∈ (sTaking.ticket 0).awaiting := he
      rw [w.1] at he'
      cases List.mem_singleton.1 he'; decide +kernel
    · have : ∀ v, (sTaking.outEntry p q).resv = some v → v = ⟨0, 1⟩ ∧ p = .C ∧ (q = 1 ∨ q = 2) :=
        all_some (by cases p <;> revert q <;> decide +kernel)
      intro v hv
      obtain ⟨rfl, rfl, hq⟩ := this v hv
      refine ⟨0, by decide, by decide, ⟨_, List.mem_singleton.2 rfl, rfl, ?_⟩, ?_⟩
      · rcases hq with rfl | rfl <;> exact all_some (by decide +kernel)
      · rcases hq with rfl | rfl <;> decide +kernel
    · intro p q
      have : ∀ c, sTaking.inEntry p q = some c → c.kind = .holder := all_some (by cases p <;> revert q <;> decide +kernel)
      exact fun c hc hk => absurd (hk.symm.trans (this c hc)) (by decide)
    · have : ∀ n, (sTaking.patch n).pendingSource = none := by decide +kernel
      exact fun n src h => by cases (this n).symm.trans h
    · have : d.marker = none ∨ d.marker = some .taken ∧ n = 1 ∧ d.name = ⟨.C, 1⟩ := by revert n d; decide +kernel
      rcases this with h | ⟨h, rfl, hd'⟩
      · rw [h]; trivial
      · rw [h]; exact ⟨0, by decide, _, List.mem_singleton.2 rfl, by rw [hd']; decide⟩

/-- Port B one loss tick before its timeout. -/
def sLoss : State := State.reset.setPort .B { split with lossTimer := some 23 }

theorem sLoss_fits : PortsFit sLoss := fun p => by
  cases p
  case B => exact ⟨⟨by decide, by decide, by decide, by decide, by decide, by decide, by decide⟩, by decide, by decide,
    by decide, by decide, by rintro c ⟨⟩; decide, by decide, by decide, by decide, fun _ _ _ => ⟨.first, 0, rfl, rfl⟩⟩
  all_goals exact ⟨⟨by decide, by decide, by decide, by decide, by decide, by decide, by decide⟩, by decide, by decide,
    by decide, by decide, by rintro c ⟨⟩, by decide, by decide, by decide, fun _ h => absurd h (by decide)⟩

theorem witness_StepKeepsPortsFit :
    let s : State := { sLoss with pending := [.lossTick] }
    PortsFit s ∧ ∃ s', step s = .next s' := ⟨fun p => sLoss_fits p, next_of (by decide +kernel)⟩
theorem witness_LockedPatchKeptInUse :
    let s := s0.modPatch 0 fun r => { r with locked := true }
    (s.patch 0).state = .live ∧ (s.patch 0).locked = true ∧ s.busy 0 = false
    ∧ (∀ k, (s.ticket k).state = .waiting → ∀ e ∈ (s.ticket k).awaiting, e.takesFrom 0 = false)
    ∧ (∀ t, Instr.clearTable (cmd .aux [1]) = .retire t → t.link = .aux)
    ∧ (∀ t, Instr.clearTable (cmd .aux [1]) = .clearTable t → t.link = .aux)
    ∧ (∀ a, Instr.clearTable (cmd .aux [1]) ≠ .powerOnReset a) ∧ ∃ s', exec (.clearTable (cmd .aux [1])) s = .next s' :=
  ⟨by decide, by decide, by decide, by decide, (by rintro t ⟨⟩), (by rintro t ⟨⟩; rfl), (by rintro a ⟨⟩),
    next_of (by decide)⟩
theorem witness_AuxCommandsConfined :
    encodeFrame (.retire (cmd .aux [0, 0])) = some (.aux, ⟨0x11, 7, 2, [0, 0]⟩)
    ∧ (∃ s', exec (.retire (cmd .aux [0, 0])) s0 = .next s') ∧ (s0.patch 0).state ≠ .free
    ∧ ∀ k, ¬ s0.WaitsFor k .install 0 :=
  ⟨by decide, next_of (by decide), by decide, fun k h => (by decide : ∀ k, (s0.ticket k).state ≠ .waiting) k h.1⟩

/-! ### Taking a command -/

theorem witness_AnsweredOnce :
    (encodeFrame (.mute (cmd .aux [48])) = some (.aux, ⟨0x15, 7, 1, [48]⟩) ∧ on.Accepts .aux)
    ∧ (encodeFrame (.mute (cmd .main [0])) = some (.main, ⟨0x15, 7, 1, [0]⟩)
      ∧ ({ on with mainLink := ⟨[], [rs 1, rs 2, rs 3], none, []⟩ } : State).Accepts .main) :=
  ⟨⟨by decide, accepts_of _ _ (by decide)⟩, by decide, accepts_of _ _ (by decide)⟩
theorem witness_ArbiterAlternates_both :
    let s : State := { on with mainLink := ⟨[fr 1], [rs 1, rs 2, rs 3], none, []⟩, auxLink := ⟨[fr 2], [], none, []⟩ }
    (s.link .main).commands ≠ [] ∧ s.Accepts .main ∧ (s.link .aux).commands ≠ [] ∧ s.Accepts .aux
    ∧ s.arbiterLink = some .aux ∧ (s.link .aux).commands = fr 2 :: [] :=
  ⟨by decide, accepts_of _ _ (by decide), by decide, accepts_of _ _ (by decide), by decide, by decide⟩
theorem witness_ArbiterAlternates_one :
    let s : State := { on with mainLink := ⟨[fr 1], [], none, []⟩, auxLink := ⟨[fr 2], [rs 1, rs 2, rs 3, rs 4], none, []⟩ }
    s.Accepts .main ∧ (s.link .main).commands ≠ [] ∧ ¬ s.Accepts .aux :=
  ⟨accepts_of _ _ (by decide), by decide, fun h => absurd h.room (by decide)⟩
theorem witness_ArbiterAlternates_aux_only :
    (s86.link .main).commands = [] ∧ ({ s86 with auxLink := ⟨[fr 1], [], none, []⟩ } : State).Accepts .aux :=
  ⟨by decide, accepts_of _ _ (by decide)⟩
theorem witness_ArbiterAlternates_none : (on.link .main).commands = [] ∧ (on.link .aux).commands = [] := by decide

theorem witness_WrongFrameIsBadFrame :
    ((Instr.unknownCode 0x17 (cmd .main [])).wf = true
      ∧ encodeFrame (.unknownCode 0x17 (cmd .main [])) = some (.main, ⟨0x17, 7, 0, []⟩))
    ∧ ((Instr.install ⟨.aux, 7, 37, List.replicate 36 0⟩).wf = true
      ∧ encodeFrame (.install ⟨.aux, 7, 37, List.replicate 36 0⟩) = some (.aux, ⟨0x10, 7, 37, List.replicate 36 0⟩)
      ∧ 36 < (37 : Byte).toNat)
    ∧ ((Instr.retire (cmd .main [0])).wf = true ∧ requiredLength (.retire (cmd .main [0])) ≠ some 1)
    ∧ on.Accepts .main ∧ on.Accepts .aux :=
  ⟨by decide, by decide +kernel, by decide, accepts_of _ _ (by decide), accepts_of _ _ (by decide)⟩
theorem witness_DeniedAndNotFound_denied :
    (encodeFrame (.clearTable (cmd .aux [9])) = some (.aux, ⟨0x38, 7, 1, [9]⟩)
      ∧ requiredLength (.clearTable (cmd .aux [9])) = some (1 : Byte).toNat)
    ∧ (encodeFrame (.readPort (cmd .aux [9, 1])) = some (.aux, ⟨0x43, 7, 2, [9, 1]⟩)
      ∧ requiredLength (.readPort (cmd .aux [9, 1])) = some (2 : Byte).toNat ∧ (cmd .aux [9, 1]).param 1 = 1)
    ∧ on.Accepts .aux := ⟨by decide, by decide, accepts_of _ _ (by decide)⟩
theorem witness_DeniedAndNotFound_not_found :
    (encodeFrame (.rebind (cmd .aux [47, 5, 15, 0xFF])) = some (.aux, ⟨0x12, 7, 4, [47, 5, 15, 0xFF]⟩)
      ∧ requiredLength (.rebind (cmd .aux [47, 5, 15, 0xFF])) = some (4 : Byte).toNat
      ∧ (on.patch (patchOf 47)).state = .free)
    ∧ (destFieldsOk ((cmd .aux [47, 1, 5, 2, 14, 15]).paramBytes 2 4) = true
      ∧ (addDestSpec (cmd .aux [47, 1, 5, 2, 14, 15])).orderOk = true
      ∧ requiredLength (.addDest (cmd .aux [47, 1, 5, 2, 14, 15])) = some (6 : Byte).toNat)
    ∧ (tuneFieldsOk (cmd .main [47, 15, 3, 1, 0, 0, 0, 0, 0]) = true
      ∧ requiredLength (.tune (cmd .main [47, 15, 3, 1, 0, 0, 0, 0, 0])) = some (9 : Byte).toNat)
    ∧ on.Accepts .aux ∧ on.Accepts .main :=
  ⟨by decide, by decide, by decide, accepts_of _ _ (by decide), accepts_of _ _ (by decide)⟩

/-- Edit `i` of frame `f` may be judged in state `s`, and asks what `P` says of it. -/
def Asks (s : State) (i : Instr) (t : Taken) (P : EditAsks → Prop) : Prop :=
  ∃ a f, s.asks i = some (t, a) ∧ encodeFrame i = some (t.link, f) ∧ s.Accepts t.link
    ∧ requiredLength i = some f.len.toNat ∧ f.len.toNat ≤ 36 ∧ P a

theorem asks_of (s : State) (i : Instr) (t : Taken) (P : EditAsks → Prop) (a : EditAsks) (f : Frame)
    (h1 : s.asks i = some (t, a))
    (h : encodeFrame i = some (t.link, f))
    (h2 : s.mayTake t.link = true ∧ requiredLength i = some f.len.toNat ∧ f.len.toNat ≤ 36)
    (h3 : P a) : Asks s i t P := ⟨a, f, h1, h, accepts_of _ _ h2.1, h2.2.1, h2.2.2, h3⟩

theorem witness_DeniedAndNotFound_bad_param :
    Asks s0 (.retire (cmd .main [0, 2])) (cmd .main [0, 2]) fun a => ¬ a.fields :=
  asks_of _ _ _ _ _ _ rfl rfl (by decide) (by dsimp only [State.asks, State.asksOf]; decide)
theorem witness_DeniedAndNotFound_no_destination :
    Asks s0 (.dropDest (cmd .aux [0, 5, 15])) (cmd .aux [0, 5, 15]) fun a => a.fields ∧ ¬ a.found :=
  asks_of _ _ _ _ _ _ rfl rfl (by decide) (by dsimp only [State.asks, State.asksOf]; decide)
theorem witness_DeniedAndNotFound_no_right :
    let s := s0.modPatch 0 fun r => { r with locked := true }
    Asks s (.retire (cmd .aux [0, 1])) (cmd .aux [0, 1]) fun a => a.fields ∧ a.found ∧ ¬ a.rights :=
  asks_of _ _ _ _ _ _ rfl rfl (by decide) (by dsimp only [State.asks, State.asksOf]; decide)
theorem witness_DeniedAndNotFound_bad_state :
    Asks s0 (.dropDest (cmd .aux [0, 1, 1])) (cmd .aux [0, 1, 1]) fun a => a.fields ∧ a.found ∧ a.rights ∧ ¬ a.state :=
  asks_of _ _ _ _ _ _ rfl rfl (by decide) (by dsimp only [State.asks, State.asksOf]; decide)
theorem witness_DeniedAndNotFound_busy :
    Asks sTaking (.mute (cmd .aux [1])) (cmd .aux [1]) fun a => a.fields ∧ a.found ∧ a.rights ∧ a.state ∧ ¬ a.idle :=
  asks_of _ _ _ _ _ _ rfl rfl (by decide) (by dsimp only [State.asks, State.asksOf]; decide)
theorem witness_DeniedAndNotFound_conflict :
    Asks s0 (.rebind (cmd .aux [0, 0, 0, 0xFF])) (cmd .aux [0, 0, 0, 0xFF])
      fun a => a.fields ∧ a.found ∧ a.rights ∧ a.state ∧ a.idle ∧ ¬ a.slots :=
  asks_of _ _ _ _ _ _ rfl rfl (by decide) (by dsimp only [State.asks, State.asksOf]; decide)
theorem witness_DeniedAndNotFound_no_ticket :
    let s : State := { s0 with tickets := Vector.replicate 12 { Ticket.free with state := .done, link := .aux } }
    Asks s (.unmute (cmd .aux [0])) (cmd .aux [0])
      fun a => a.fields ∧ a.found ∧ a.rights ∧ a.state ∧ a.idle ∧ a.slots ∧ ¬ a.ticket :=
  asks_of _ _ _ _ _ _ rfl rfl (by decide) (by dsimp only [State.asks, State.asksOf]; decide +kernel)
/-- An INSTALL without EVICT where every record is LIVE. -/
theorem witness_DeniedAndNotFound_table_full :
    let t := cmd .main [0, 0, 2, 1, 1, 0, 0, 0, 0, 0, 0, 0, 0, 7, 0xFF, 1, 0, 0, 6, 0xFF]
    Asks s115 (.install t) t
      fun a => a.fields ∧ a.found ∧ a.rights ∧ a.state ∧ a.idle ∧ a.slots ∧ a.ticket ∧ ¬ a.record := by
  refine asks_of _ _ _ _ _ _ rfl rfl (by decide +kernel) ?_
  dsimp only [State.asks, State.asksOf]
  refine ⟨by decide, trivial, by decide, trivial, fun x _ h => absurd h (by decide), ⟨by decide, ?_⟩, by decide +kernel, ?_⟩
  · show ∀ x ∈ (descriptorOf _).dests, ∀ q ∈ x.slots, s115.outEntry x.port q = ⟨none, none⟩
    decide
  · rintro (h | h)
    · exact absurd h (by decide +kernel)
    · exact absurd h.1 (by decide)
theorem witness_DeniedAndNotFound_cancel :
    let t := cmd .aux [0]
    t.len = 1 ∧ on.Accepts .aux ∧ 12 ≤ ((cmd .aux [12]).param 0).toNat ∧ (t.param 0).toNat < 12
    ∧ (on.ticket 0).state = .free
    ∧ (sFan.ticket 0).link = .main ∧ (sFan.ticket 0).state ≠ .free
    ∧ (let k := (on.setTicket 0 { waits .retire 0 [.release ⟨.B, 1⟩] with link := .aux }).ticket 0
       k.link = .aux ∧ k.orphan = false ∧ k.state ≠ .free ∧ k.op ≠ some .install ∧ k.op ≠ some .rebind ∧ k.op ≠ some .addDest)
    ∧ (let k := (on.setTicket 0 { waits .addDest 0 [] with link := .aux, state := .done }).ticket 0
       k.op = some .addDest ∧ k.state = .done) :=
  ⟨by decide, accepts_of _ _ (by decide), by decide, by decide, by decide, by decide, by decide, by decide, by decide⟩

/-! ### Staged edits -/

theorem witness_InstallAccepted : s112.Installs install112 (descriptorOf install112) 0 ∧ s112.freeRecord? = some 0 :=
  ⟨⟨accepts_of _ _ (by decide), by decide, by decide, by decide, rfl, by decide, by decide, by decide, by decide,
    by decide⟩, by decide⟩
/-- The same fields from the aux link with eight tickets left, to the last record. -/
theorem witness_InstallAccepted_aux :
    let t : Taken := cmd .aux [1, 7, 3, 4, 4, 1, 1, 0, 0, 0, 0, 0, 4, 14, 15, 1, 4, 2, 14, 15]
    let s : State := { on with patches := (Vector.replicate 48 (live [])).set 47 Patch.free }
    s.Installs t (descriptorOf t) 0 ∧ s.freeRecord? = some 47 :=
  ⟨⟨accepts_of _ _ (by decide), by decide, by decide, by decide, rfl, by decide, by decide, by decide, by decide,
    by decide⟩, by decide +kernel⟩
theorem takesOver_of (s : State) (l : Link) (x : DestSpec) (m : PatchNo) (f : Slot)
    (h : (s.patch m).state = .live ∧ (s.patch m).locked = false ∧ s.busy m = false
      ∧ (l = .aux → (s.patch m).owner = s.rights.tag) ∧ f ∈ x.slots ∧ (s.outEntry x.port f).holder = some ⟨m, f, false⟩
      ∧ ∀ q ∈ x.slots, (s.outEntry x.port q).resv = none ∧ ((s.outEntry x.port q).holder = none
        ∨ (s.outEntry x.port q).holder = some ⟨m, f, false⟩ ∨ (s.outEntry x.port q).holder = some ⟨m, f, true⟩)) :
    s.TakesOver l x (some (m, f)) :=
  ⟨h.1, h.2.1, h.2.2.1, h.2.2.2.1, h.2.2.2.2.1, h.2.2.2.2.2.1, fun q hq => ⟨(h.2.2.2.2.2.2 q hq).1,
    (h.2.2.2.2.2.2 q hq).2.imp id fun e => e.elim (fun e => ⟨false, e⟩) fun e => ⟨true, e⟩⟩⟩
/-- An INSTALL with TAKE: a TWIN on C slots 1 and 2, of which patch 1 holds slot 1, and a new destination on B slot 0. -/
def takes : Taken := cmd .aux [0, 0, 2, 1, 1, 0, 0, 1, 0, 0, 0, 0, 0, 7, 0xFF, 2, 2, 1, 1, 2, 1, 0, 0, 0xFF]
theorem witness_InstallAccepted_takes (b : Bool) :
    let taken (x : DestSpec) : Option (PatchNo × Slot) := if x.port = .C then some (1, 1) else none
    let s := held (sTake.setPc .C b) .B
    s.InstallsTaking takes (descriptorOf takes) 0 taken ∧ s.freeRecord? = some 2 ∧ TableFits s
    ∧ s.pcHolds .B = true ∧ s.pcHolds .C = b ∧ (b = true → ∀ x ∈ (descriptorOf takes).dests, s.pcHolds x.port = true) := by
  refine ⟨⟨accepts_of _ _ (by cases b <;> decide), by decide, by decide, by decide, rfl, by decide, by cases b <;> decide,
    by cases b <;> decide, ?_, by cases b <;> decide, by cases b <;> decide⟩, by cases b <;> decide +kernel,
    tableFits_of _ (by cases b <;> decide +kernel), by cases b <;> decide, by cases b <;> decide, by cases b <;> decide⟩
  intro x hx
  have hx' : x = ⟨.C, .twin, 1, some 2⟩ ∨ x = ⟨.B, .one, 0, none⟩ := by
    simpa using (show x ∈ [⟨.C, .twin, 1, some 2⟩, ⟨.B, .one, 0, none⟩] from hx)
  rcases hx' with rfl | rfl
  · exact takesOver_of _ _ _ _ _ (by cases b <;> decide)
  · exact (show ∀ q ∈ DestSpec.slots _, State.outEntry _ _ q = _ from by cases b <;> decide)
/-- The same of one destination, on a port not held as LOCKED. -/
theorem witness_InstallAccepted_takes_at_once :
    let t := cmd .aux [0, 0, 2, 1, 1, 0, 0, 1, 0, 0, 0, 0, 0, 7, 0xFF, 1, 2, 1, 1, 2]
    let s := sTake.setPc .C false
    s.InstallsTaking t (descriptorOf t) 0 (fun _ => some (1, 1)) ∧ (descriptorOf t).dests = [⟨.C, .twin, 1, some 2⟩]
    ∧ s.freeRecord? = some 2 ∧ s.pcHolds .C = false := by
  refine ⟨⟨accepts_of _ _ (by decide), by decide, by decide, by decide, rfl, by decide, by decide, by decide, ?_, by decide,
    by decide⟩, by decide, by decide +kernel, by decide⟩
  intro x hx
  obtain rfl : x = ⟨.C, .twin, 1, some 2⟩ := by simpa using (show x ∈ [⟨.C, .twin, 1, some 2⟩] from hx)
  exact takesOver_of _ _ _ _ _ (by decide)
theorem witness_InstallEvicts :
    let t : Taken := cmd .main [0, 0, 2, 1, 1, 0, 0, 2, 0, 0, 0, 0, 0, 7, 0xFF, 1, 0, 0, 6, 0xFF]
    s115.Installs t (descriptorOf t) 0 ∧ s115.freeRecord? = none ∧ (descriptorOf t).mayEvict = true
    ∧ s115.victim? .main (descriptorOf t).priority [] = some 12 :=
  ⟨⟨accepts_of _ _ (by decide), by decide, by decide, by decide, rfl, by decide, by decide, by decide, by decide,
    by decide⟩, by decide +kernel, by decide, by decide +kernel⟩
/-- Section 11.5's INSTALL, which takes E4 from patch 30 and evicts patch 12. -/
theorem witness_InstallEvicts_takes :
    let t : Taken := cmd .main [0, 0, 2, 1, 1, 0, 0, 3, 0, 0, 0, 0, 0, 7, 0xFF, 2, 4, 0, 4, 0xFF, 0, 0, 6, 0xFF]
    let taken (x : DestSpec) : Option (PatchNo × Slot) := if x.port = .E then some (30, 4) else none
    TableFits s115 ∧ s115.InstallsTaking t (descriptorOf t) 0 taken ∧ s115.freeRecord? = none
    ∧ (descriptorOf t).mayEvict = true
    ∧ s115.victim? t.link (descriptorOf t).priority
        (((descriptorOf t).dests.filterMap taken).map Prod.fst).eraseDups = some 12 := by
  refine ⟨tableFits_of _ (by decide +kernel), ⟨accepts_of _ _ (by decide), by decide, by decide, by decide, rfl, by decide,
    by decide, by decide, ?_, by decide, by decide⟩, by decide +kernel, by decide, by decide +kernel⟩
  intro x hx
  have hx' : x = ⟨.E, .one, 4, none⟩ ∨ x = ⟨.A, .one, 6, none⟩ := by
    simpa using (show x ∈ [⟨.E, .one, 4, none⟩, ⟨.A, .one, 6, none⟩] from hx)
  rcases hx' with rfl | rfl
  · exact takesOver_of _ _ _ _ _ (by decide)
  · exact (show ∀ q ∈ DestSpec.slots _, State.outEntry _ _ q = _ from by decide)
theorem witness_VictimChoice :
    s115.victim? .aux 1 [] = some 12 ∧ s115.victim? .main 1 [12] = some 30 ∧ s115.victim? .main 0 [] = none := by
  decide +kernel
theorem editable_of (s : State) (t : Taken) (n : PatchNo) (k : TicketNo)
    (h : s.mayTake t.link = true ∧ (s.patch n).state = .live ∧ s.busy n = false
      ∧ (t.link = .aux → (s.patch n).owner = s.rights.tag ∧ (s.patch n).locked = false)
      ∧ s.freeTicket? = some k ∧ (t.link = .aux → s.auxTicketCount < 8)) : s.Editable t n k :=
  ⟨accepts_of _ _ h.1, h.2.1, h.2.2.1, h.2.2.2.1, h.2.2.2.2.1, h.2.2.2.2.2⟩
theorem witness_RetireAccepted_waits :
    let t := cmd .main [20, 1]
    let r := sDrain.patch 20
    t.len = 2 ∧ (t.param 0).toNat < 48 ∧ (t.param 1).toNat < 2 ∧ sDrain.Editable t 20 0 ∧ r.source = some ⟨.A, 3, none⟩
    ∧ r.dests ≠ [] ∧ (r.dests.map Destination.name).Nodup ∧ sDrain.pcHolds .A = true
    ∧ ∀ d ∈ r.dests, sDrain.pcHolds d.port = true :=
  ⟨by decide, by decide, by decide, editable_of _ _ _ _ (by decide), by decide, by decide, by decide, by decide, by decide⟩
theorem witness_RetireAccepted_at_once (b : Bool) :
    let t := cmd .aux [0, 0]
    let s := if b then held s0 .A else s0
    let r := s.patch 0
    t.len = 2 ∧ s.Editable t 0 0 ∧ r.source = some ⟨.A, 0, none⟩ ∧ r.dests ≠ [] ∧ (r.dests.map Destination.name).Nodup
    ∧ s.pcHolds .A = b ∧ ∀ d ∈ r.dests, s.pcHolds d.port = false := by
  cases b <;> exact ⟨by decide, editable_of _ _ _ _ (by decide), by decide, by decide, by decide, by decide, by decide⟩
/-- The drain example with B, and perhaps A, not held as LOCKED. -/
theorem witness_RetireAccepted_mixed (b : Bool) :
    let t := cmd .main [20, 1]
    let s := (sDrain.setPc .B false).setPc .A b
    let r := s.patch 20
    t.len = 2 ∧ (t.param 1).toNat < 2 ∧ s.Editable t 20 0 ∧ r.source = some ⟨.A, 3, none⟩ ∧ r.dests ≠ []
    ∧ (r.dests.map Destination.name).Nodup ∧ s.pcHolds .A = b ∧ (∃ d ∈ r.dests, s.pcHolds d.port = true)
    ∧ ∃ d ∈ r.dests, s.pcHolds d.port = false := by
  cases b <;> exact ⟨by decide, by decide, editable_of _ _ _ _ (by decide), by decide, by decide, by decide, by decide,
    by decide, by decide⟩
/-- The drain example with A alone not held as LOCKED. -/
theorem witness_RetireAccepted_source_alone :
    let t := cmd .main [20, 1]
    let s := sDrain.setPc .A false
    let r := s.patch 20
    t.len = 2 ∧ (t.param 1).toNat < 2 ∧ s.Editable t 20 0 ∧ r.source = some ⟨.A, 3, none⟩ ∧ r.dests ≠ []
    ∧ (r.dests.map Destination.name).Nodup ∧ s.pcHolds .A = false ∧ ∀ d ∈ r.dests, s.pcHolds d.port = true :=
  ⟨by decide, by decide, editable_of _ _ _ _ (by decide), by decide, by decide, by decide, by decide, by decide⟩
theorem witness_RebindAccepted (b : Bool) :
    let t := cmd .aux [0, 4, 15, 0xFF]
    let s := if b then held s0 .E else s0
    t.len = 4 ∧ (t.param 0).toNat < 48 ∧ (t.param 1).toNat < 6 ∧ (t.param 2).toNat < 16 ∧ t.param 3 = 0xFF
    ∧ sourceFits (s.patch 0).kind (rebindSource t).left (rebindSource t).right = true ∧ s.Editable t 0 0
    ∧ s.rights.grants (rebindSource t).port = true
    ∧ (∀ x ∈ (rebindSource t).roles, s.inEntry (rebindSource t).port x.1 = none)
    ∧ s.pcHolds (rebindSource t).port = b := by
  cases b <;> exact ⟨by decide, by decide, by decide, by decide, by decide, by decide, editable_of _ _ _ _ (by decide),
    by decide, by decide, by decide⟩
theorem witness_AddDestAccepted (b : Bool) :
    let t := cmd .aux [0, 1, 4, 1, 14, 15]
    let s := if b then held s0 .E else s0
    let d := addDestSpec t
    t.len = 6 ∧ (t.param 0).toNat < 48 ∧ (t.param 1).toNat < 2 ∧ destFieldsOk (t.paramBytes 2 4) = true ∧ d.orderOk = true
    ∧ d.form.matchesKind (s.patch 0).kind = true ∧ s.Editable t 0 0 ∧ s.rights.grants d.port = true
    ∧ (s.patch 0).dests.length < 4 ∧ (s.patch 0).dest? d.name = none ∧ (∀ q ∈ d.slots, s.outEntry d.port q = ⟨none, none⟩)
    ∧ s.pcHolds d.port = b := by
  cases b <;> exact ⟨by decide, by decide, by decide, by decide, by decide, by decide, editable_of _ _ _ _ (by decide),
    by decide, by decide, by decide, by decide, by decide⟩
theorem witness_AddDestAccepted_takes (b : Bool) :
    let t := cmd .aux [0, 1, 2, 1, 1, 2]
    let d := addDestSpec t
    let s := sTake.setPc .C b
    t.len = 6 ∧ t.param 1 = 1 ∧ destFieldsOk (t.paramBytes 2 4) = true ∧ d.orderOk = true
    ∧ d.form.matchesKind (s.patch 0).kind = true ∧ s.Editable t 0 0 ∧ s.rights.grants d.port = true
    ∧ (s.patch 0).dests.length < 4 ∧ (s.patch 0).dest? d.name = none ∧ s.pcHolds d.port = b
    ∧ s.TakesOver .aux d (some (1, 1)) := by
  cases b <;> exact ⟨by decide, by decide, by decide, by decide, by decide, editable_of _ _ _ _ (by decide), by decide,
    by decide, by decide, by decide, takesOver_of _ _ _ _ _ (by decide)⟩
theorem witness_DropDestAccepted (b : Bool) :
    let t := cmd .main [0, 1, 1]
    let s0 := put on 0 (live [dst .B 1 .dormant, dst .B 2 .dormant])
    let s := if b then held s0 .B else s0
    t.len = 3 ∧ (t.param 0).toNat < 48 ∧ (t.param 1).toNat < 6 ∧ (t.param 2).toNat < 16 ∧ s.Editable t 0 0
    ∧ ((s.patch 0).dest? (dropDestName t)).isSome = true ∧ 1 < (s.patch 0).dests.length ∧ s.pcHolds .B = b := by
  cases b <;> exact ⟨by decide, by decide, by decide, by decide, editable_of _ _ _ _ (by decide), by decide, by decide,
    by decide⟩
theorem witness_MuteAccepted (b : Bool) :
    let s := if b then held s0 .B else s0
    (cmd .aux [0]).len = 1 ∧ ((cmd .aux [0]).param 0).toNat < 48 ∧ s.Editable (cmd .aux [0]) 0 0 ∧ s.pcHolds .B = b := by
  cases b <;> exact ⟨by decide, by decide, editable_of _ _ _ _ (by decide), by decide⟩

/-! ### Tickets -/

/-- The INSTALL with TAKE waits, its transfer among its endpoints; `b` makes it an orphan. -/
def sInstalling (b : Bool) : State :=
  let s := after (exec (.install takes) (held sTake .B))
  s.setTicket 0 { s.ticket 0 with orphan := b }

theorem witness_CancelUndoes_install :
    let t := cmd .main [0]
    let tk := sFan.ticket 0
    t.len = 1 ∧ (t.param 0).toNat < 12 ∧ sFan.Accepts .main ∧ tk.state = .waiting ∧ tk.op = some .install
    ∧ tk.subject = some 5 ∧ tk.orphan = false ∧ tk.link = .main ∧ (∀ e ∈ tk.awaiting, e.takesFrom 5 = false)
    ∧ ∀ k', (sFan.ticket k').state = .waiting → 5 ∉ (sFan.ticket k').donors :=
  ⟨by decide, by decide, accepts_of _ _ (by decide), by decide, by decide, by decide, by decide, by decide, by decide,
    by decide⟩
theorem witness_CancelUndoes_transfers (b : Bool) :
    let t := cmd .main [0]
    let s := sInstalling b
    let tk := s.ticket 0
    t.len = 1 ∧ s.Accepts .main ∧ tk.state = .waiting ∧ tk.op = some .install ∧ tk.subject = some 2 ∧ tk.orphan = b
    ∧ s.rights.enabled = true ∧ .transfer ⟨.C, 1⟩ 1 1 ∈ tk.awaiting ∧ (∀ e ∈ tk.awaiting, e.takesFrom 2 = false)
    ∧ ∀ k', (s.ticket k').state = .waiting → 2 ∉ (s.ticket k').donors := by
  cases b <;> exact ⟨by decide, accepts_of _ _ (by decide +kernel), by decide +kernel, by decide +kernel, by decide +kernel,
    by decide +kernel, by decide +kernel, by decide +kernel, by decide +kernel, by decide +kernel⟩
theorem witness_CancelUndoes_add_dest (b : Bool) :
    let s := sTaking.setTicket 0 { sTaking.ticket 0 with orphan := b }
    let t := cmd (if b then .main else .aux) [0]
    let tk := s.ticket 0
    let e : Endpoint := .transfer ⟨.C, 1⟩ 1 1
    t.len = 1 ∧ (t.param 0).toNat < 12 ∧ s.Accepts t.link ∧ tk.state = .waiting ∧ tk.op = some .addDest
    ∧ tk.subject = some 0 ∧ tk.awaiting = [e] ∧ e.takesFrom 0 = false ∧ (t.link = .aux → tk.link = .aux ∧ tk.orphan = false)
    ∧ s.rights.enabled = true := by
  cases b <;> exact ⟨by decide, by decide, accepts_of _ _ (by decide), by decide, by decide, by decide, by decide, by decide,
    by decide, by decide⟩
theorem witness_ReadTicketFreesOwnDone :
    let s := on.setTicket 11 { waits .rebind 0 [] with link := .aux, state := .done, ending := some .completed }
    let tk := s.ticket 11
    (cmd .aux [11]).len = 1 ∧ ((cmd .aux [11]).param 0).toNat < 12 ∧ s.Accepts .aux ∧ tk.state ≠ .free ∧ tk.link = .aux
    ∧ tk.orphan = false :=
  ⟨by decide, by decide, accepts_of _ _ (by decide), by decide, by decide, by decide⟩
/-- Patch 0, locked, is kept, and its ADD-DEST ends, since it takes from patch 1. -/
theorem witness_ClearTableFrees :
    let s := sTaking.modPatch 0 fun r => { r with locked := true }
    (cmd .main [0]).len = 1 ∧ ((cmd .main [0]).param 0).toNat < 2 ∧ s.Accepts .main ∧ TableFits s
    ∧ (s.patch 0).state ≠ .free ∧ (s.patch 0).locked = true ∧ (s.patch 1).state ≠ .free ∧ (s.patch 1).locked = false
    ∧ (s.ticket 0).names 1 = true ∧ (s.ticket 0).subject = some 0 :=
  ⟨by decide, by decide, accepts_of _ _ (by decide), tableFits_of _ (by decide +kernel), by decide, by decide, by decide,
    by decide, by decide, by decide⟩

/-! ### Frame starts and exits -/

theorem witness_PortEventsApplyAll :
    (∀ k, (sFan.ticket k).state = .waiting → (sFan.ticket k).subject.isSome = true) ∧ sFan.pcHolds .B = true
    ∧ sFan.pcHolds .D = false ∧ sFan.Foremost (.frameStart .B false) ∧ sFan.Foremost (.frameStart .D false)
    ∧ ({ sFan with raised := [.lockedExit .B, .frameStart .B true] } : State).Foremost (.lockedExit .B) :=
  ⟨by decide, by decide, by decide, State.foremost_of_raised_nil _ rfl, State.foremost_of_raised_nil _ rfl,
    foremost_of _ _ (by decide)⟩
theorem witness_FrameStartRecoversAndClears :
    let s : State := { sFan with raised := [.lockedExit .B, .frameStart .C false] }
    s.pcHolds .C = true ∧ (∀ k, (s.ticket k).state = .waiting → ∀ e ∈ (s.ticket k).awaiting, e.port ≠ .C)
    ∧ s.Foremost (.frameStart .C false) ∧ s.Foremost (.frameStart .D true) :=
  ⟨by decide, by decide, foremost_of _ _ (by decide), foremost_of _ _ (by decide)⟩
/-- The drain example once intake is CLOSED and C is released, B being owed entries; on port C no ticket waits. -/
theorem witness_FrameStartRecoversAndClears_held_back :
    let s := (sDrain.modPatch 20 fun r => { r with state := .retiring, intake := .closed }).setTicket 0
      { waits .retire 20 [.release ⟨.B, 0⟩] with mode := some .drain }
    s.Foremost (.frameStart .B false) ∧ s.pcHolds .B = true
    ∧ (∀ k, (s.ticket k).state = .waiting → ∀ e ∈ (s.ticket k).awaiting, e.port = .B → s.HeldBack k e)
    ∧ s.Foremost (.lockedExit .C) ∧ ∀ k, (s.ticket k).state = .waiting → ∀ e ∈ (s.ticket k).awaiting, e.port ≠ .C := by
  refine ⟨State.foremost_of_raised_nil _ rfl, by decide, ?_, State.foremost_of_raised_nil _ rfl, by decide⟩
  intro k hk e he _
  have : ∀ k, ((sDrain.setTicket 0 { waits .retire 20 [.release ⟨.B, 0⟩] with mode := some .drain }).ticket k).state = .waiting →
    k = 0 := by decide
  obtain rfl := this k hk
  obtain rfl := List.mem_singleton.1 (show e ∈ [.release ⟨.B, 0⟩] from he)
  exact ⟨rfl, 20, rfl, fun h => h.2 (dst .B 0 .primed) rfl rfl ⟨.single 1, [⟨.B, 0⟩]⟩ (by decide) (by decide)⟩
theorem onlyWaits_of (s : State) (p : Port) (k : TicketNo) (n : PatchNo) (e : Endpoint)
    (h : e.port = p ∧ (s.ticket k).state = .waiting ∧ (s.ticket k).subject = some n ∧ (s.ticket k).awaiting = [e]
      ∧ (s.ticket k).orphan = false ∧ ((s.ticket k).link = .aux → s.rights.enabled = true)
      ∧ ∀ k', k' ≠ k → (s.ticket k').state = .waiting → ∀ x ∈ (s.ticket k').awaiting, x.port ≠ p) : s.OnlyWaits p k n e :=
  ⟨h.1, h.2.1, h.2.2.1, h.2.2.2.1, h.2.2.2.2.1, h.2.2.2.2.2.1, h.2.2.2.2.2.2⟩
theorem waitsAmong_of (s : State) (p : Port) (k : TicketNo) (n : PatchNo) (e : Endpoint) (before after : List Endpoint)
    (h : e.port = p ∧ (s.ticket k).state = .waiting ∧ (s.ticket k).subject = some n
      ∧ (s.ticket k).awaiting = before ++ e :: after ∧ (∀ x ∈ before ++ after, x.port ≠ p)
      ∧ (s.ticket k).orphan = false ∧ ((s.ticket k).link = .aux → s.rights.enabled = true)
      ∧ ∀ k', k' ≠ k → (s.ticket k').state = .waiting → ∀ x ∈ (s.ticket k').awaiting, x.port ≠ p) :
    s.WaitsAmong p k n e before after :=
  ⟨h.1, h.2.1, h.2.2.1, h.2.2.2.1, h.2.2.2.2.1, h.2.2.2.2.2.1, h.2.2.2.2.2.2.1, h.2.2.2.2.2.2.2⟩
theorem firstOn_of (s : State) (exit : Bool) (p : Port) (k : TicketNo) (n : PatchNo) (e : Endpoint)
    (before after : List Endpoint) (hf : s.raised = [])
    (h : s.pcHolds p = true ∧ e.port = p ∧ (s.ticket k).state = .waiting ∧ (s.ticket k).subject = some n
      ∧ (s.ticket k).awaiting = before ++ e :: after ∧ (∀ x ∈ before, x.port ≠ p)
      ∧ (∀ k', k' < k → (s.ticket k').state = .waiting → ∀ x ∈ (s.ticket k').awaiting, x.port ≠ p)
      ∧ ((s.ticket k).link = .aux → (s.ticket k).orphan = false → s.rights.enabled = true))
    (hr : exit = false → ¬ s.HeldBack k e) : s.FirstOn exit p k n e before after :=
  ⟨State.foremost_of_raised_nil _ hf, h.1, h.2.1, h.2.2.1, h.2.2.2.1, h.2.2.2.2.1, hr,
    fun x hx hp => absurd hp (h.2.2.2.2.2.1 x hx), fun k' hk hw x hx hp => absurd hp (h.2.2.2.2.2.2.1 k' hk hw x hx),
    h.2.2.2.2.2.2.2⟩
/-- Section 11.2's INSTALL as it was accepted. -/
def s112a : State := after (exec (.install install112) s112)
theorem witness_DestinationActivated_first (exit : Bool) :
    let d : Destination := dst .B 0 .waiting
    s112a.FirstOn exit .B 0 0 (.destActivation ⟨.B, 0⟩) [.sourceActivation .A, .destActivation ⟨.A, 3⟩] []
    ∧ TableFits s112a ∧ NamesFit s112a ∧ (s112a.patch 0).dest? ⟨.B, 0⟩ = some d ∧ d.phase = .waiting :=
  ⟨firstOn_of _ _ _ _ _ _ _ _ rfl (by decide +kernel) (fun _ h => h), tableFits_of _ (by decide +kernel),
    namesFit_of _ (by decide +kernel) (by decide +kernel) (by decide +kernel), by decide +kernel, rfl⟩
/-- The last endpoint of an INSTALL. -/
theorem witness_DestinationActivated_live (exit : Bool) :
    sFan.Foremost (if exit then .lockedExit .B else .frameStart .B false) ∧ sFan.OnlyWaits .B 0 5 (.destActivation ⟨.B, 0⟩)
    ∧ (sFan.ticket 0).op = some .install ∧ sFan.pcHolds .B = true ∧ (sFan.patch 5).dest? ⟨.B, 0⟩ = some (dst .B 0 .waiting)
    ∧ (sFan.patch 5).state = .pending :=
  ⟨State.foremost_of_raised_nil _ rfl, onlyWaits_of _ _ _ _ _ (by decide), by decide, by decide, by decide, by decide⟩
theorem witness_DestinationActivated (exit : Bool) :
    let s := after (exec (.addDest (cmd .aux [0, 0, 4, 1, 14, 15])) (held s0 .E))
    let d : Destination := { dst .E 14 .waiting with form := .twin, second := some 15 }
    s.Foremost (if exit then .lockedExit .E else .frameStart .E false) ∧ s.OnlyWaits .E 0 0 (.destActivation ⟨.E, 14⟩)
    ∧ (s.ticket 0).op = some .addDest ∧ s.pcHolds .E = true ∧ (s.patch 0).dest? ⟨.E, 14⟩ = some d ∧ d.phase = .waiting :=
  ⟨State.foremost_of_raised_nil _ rfl, onlyWaits_of _ _ _ _ _ (by decide), by decide, by decide, by decide, by decide⟩
/-- The donor is left with no destination, or with one on D slot 5. -/
theorem witness_TransferApplied (exit more : Bool) :
    let s := if more then sTaking.modPatch 1 fun r => { r with dests := r.dests ++ [dst .D 5 .dormant] } else sTaking
    let d : Destination := { dst .C 1 .waiting with form := .twin, second := some 2 }
    s.Foremost (if exit then .lockedExit .C else .frameStart .C false) ∧ s.OnlyWaits .C 0 0 (.transfer ⟨.C, 1⟩ 1 1)
    ∧ (s.ticket 0).op = some .addDest ∧ s.pcHolds .C = true ∧ (s.patch 0).dest? ⟨.C, 1⟩ = some d ∧ d.phase = .waiting
    ∧ (s.patch 0).state = .live ∧ (s.patch 1).state = .live
    ∧ ((s.patch 1).without fun x => x = ⟨.C, 1⟩).dests = (if more then [dst .D 5 .dormant] else []) := by
  cases more <;> exact ⟨State.foremost_of_raised_nil _ rfl, onlyWaits_of _ _ _ _ _ (by decide), by decide, by decide,
    by decide, by decide, by decide, by decide, by decide⟩
/-- An INSTALL with TAKE, the activation on B still to come, or with nothing else to come. -/
theorem witness_TransferApplied_first (exit last : Bool) :
    let s := if last then (sInstalling false).setTicket 0 { (sInstalling false).ticket 0 with awaiting := [.transfer ⟨.C, 1⟩ 1 1] }
      else sInstalling false
    let d : Destination := { dst .C 1 .waiting with form := .twin, second := some 2 }
    s.FirstOn exit .C 0 2 (.transfer ⟨.C, 1⟩ 1 1) [] (if last then [] else [.destActivation ⟨.B, 0⟩]) ∧ TableFits s ∧ NamesFit s
    ∧ (s.patch 2).dest? ⟨.C, 1⟩ = some d ∧ d.phase = .waiting ∧ (s.patch 1).state = .live ∧ (s.ticket 0).op = some .install
    ∧ (s.patch 2).state = .pending ∧ (last = true → s.OnlyWaits .C 0 2 (.transfer ⟨.C, 1⟩ 1 1)) := by
  cases last <;> exact ⟨firstOn_of _ _ _ _ _ _ _ _ rfl (by decide +kernel) (fun _ h => h), tableFits_of _ (by decide +kernel),
    namesFit_of _ (by decide +kernel) (by decide +kernel) (by decide +kernel), by decide +kernel, rfl, by decide +kernel, by decide +kernel, by decide +kernel,
    fun h => by first | exact absurd h (by decide) | exact onlyWaits_of _ _ _ _ _ (by decide +kernel)⟩
/-- The last release of a RETIRE under either mode, intake closed or not. -/
theorem witness_RetireReleaseTest (exit : Bool) (mode : RetireMode) (closed : Bool) :
    let r := { s0.patch 0 with state := .retiring, intake := if closed then .closed else .opened }
    let s := ((held s0 .B).setPatch 0 r).setTicket 0 { waits .retire 0 [.release ⟨.B, 1⟩] with mode := some mode }
    s.Foremost (if exit then .lockedExit .B else .frameStart .B false) ∧ s.WaitsAmong .B 0 0 (.release ⟨.B, 1⟩) [] []
    ∧ (s.ticket 0).op = some .retire ∧ (s.ticket 0).mode = some mode ∧ s.pcHolds .B = true ∧ (s.patch 0).state = .retiring
    ∧ dst .B 1 .primed ∈ (s.patch 0).dests ∧ ((s.patch 0).dests.map Destination.name).Nodup
    ∧ ((s.patch 0).without fun x => x = ⟨.B, 1⟩).dests = [] := by
  cases mode <;> cases closed <;>
    exact ⟨State.foremost_of_raised_nil _ rfl, waitsAmong_of _ _ _ _ _ _ _ (by decide), by decide, by decide, by decide,
      by decide, by decide, by decide, by decide⟩
/-- The drain example, the release of C with the intake close and the release of B still to come. -/
theorem witness_RetireReleaseTest_more (exit : Bool) (mode : RetireMode) :
    let s := (sDrain.modPatch 20 fun r => { r with state := .retiring }).setTicket 0
      { waits .retire 20 [.intakeClose .A, .release ⟨.C, 6⟩, .release ⟨.B, 0⟩] with mode := some mode }
    s.Foremost (if exit then .lockedExit .C else .frameStart .C false)
    ∧ s.WaitsAmong .C 0 20 (.release ⟨.C, 6⟩) [.intakeClose .A] [.release ⟨.B, 0⟩]
    ∧ (s.ticket 0).op = some .retire ∧ (s.ticket 0).mode = some mode ∧ s.pcHolds .C = true ∧ (s.patch 20).state = .retiring
    ∧ dst .C 6 .unprimed ∈ (s.patch 20).dests ∧ ((s.patch 20).dests.map Destination.name).Nodup
    ∧ ((s.patch 20).without fun x => x = ⟨.C, 6⟩).dests ≠ [] := by
  cases mode <;> exact ⟨State.foremost_of_raised_nil _ rfl, waitsAmong_of _ _ _ _ _ _ _ (by decide), by decide, by decide,
    by decide, by decide, by decide, by decide, by decide⟩
theorem witness_RetireReleaseTest_drop (exit : Bool) :
    let s := after (exec (.dropDest (cmd .main [20, 2, 6])) sDrain)
    s.Foremost (if exit then .lockedExit .C else .frameStart .C false) ∧ s.OnlyWaits .C 0 20 (.release ⟨.C, 6⟩)
    ∧ (s.ticket 0).op = some .dropDest ∧ (s.ticket 0).mode = none ∧ s.pcHolds .C = true ∧ (s.patch 20).state = .live :=
  ⟨State.foremost_of_raised_nil _ rfl, onlyWaits_of _ _ _ _ _ (by decide), by decide, by decide, by decide, by decide⟩
/-- A patch with two destinations on B, one PRIMED that is owed an entry, under a RETIRE. -/
def sTwo (mode : RetireMode) : State :=
  (put (held (held State.reset .A) .B) 20
    { live [dst .B 0 .primed, dst .B 6 .unprimed] with
      state := .retiring, intake := .closed, queue := [⟨.single 1, [⟨.B, 0⟩]⟩] }).setTicket 0
    { waits .retire 20 [.release ⟨.B, 0⟩, .release ⟨.B, 6⟩] with mode := some mode }
/-- Under CUT the first of them goes first. -/
theorem witness_RetireReleaseTest_two (exit : Bool) :
    (sTwo .cut).FirstOn exit .B 0 20 (.release ⟨.B, 0⟩) [] [.release ⟨.B, 6⟩] ∧ TableFits (sTwo .cut) ∧ NamesFit (sTwo .cut) :=
  ⟨firstOn_of _ _ _ _ _ _ _ _ rfl (by decide +kernel) (fun _ h => absurd h.1 (by decide)), tableFits_of _ (by decide +kernel),
    namesFit_of _ (by decide +kernel) (by decide +kernel) (by decide +kernel)⟩
/-- Under DRAIN, at a frame start, it is held back, and the second goes. -/
theorem witness_RetireReleaseTest_held_back :
    (sTwo .drain).FirstOn false .B 0 20 (.release ⟨.B, 6⟩) [.release ⟨.B, 0⟩] [] ∧ TableFits (sTwo .drain)
    ∧ NamesFit (sTwo .drain) := by
  refine ⟨⟨State.foremost_of_raised_nil _ rfl, by decide, by decide, by decide, by decide, by decide, fun _ h => ?_, ?_,
    fun k' hk => absurd hk (by simp), fun h => absurd h (by decide)⟩, tableFits_of _ (by decide +kernel),
    namesFit_of _ (by decide +kernel) (by decide +kernel) (by decide +kernel)⟩
  · obtain ⟨-, n, hn, h⟩ := h
    obtain rfl := Option.some.inj hn
    refine h ⟨rfl, fun d hd hp => ?_⟩
    have : ((sTwo .drain).patch 20).dest? ⟨.B, 6⟩ = some (dst .B 6 .unprimed) := by decide
    exact absurd hp (by rw [← Option.some.inj (this.symm.trans hd)]; decide)
  · intro x hx _
    obtain rfl := List.mem_singleton.1 hx
    exact ⟨rfl, ⟨rfl, 20, rfl, fun h => h.2 (dst .B 0 .primed) rfl rfl ⟨.single 1, [⟨.B, 0⟩]⟩ (by decide) (by decide)⟩,
      _, rfl⟩
/-- The source activation of section 11.2's INSTALL, another endpoint of port A after it. -/
theorem witness_PlainEndpointsApplied_first_activation (exit : Bool) :
    s112a.FirstOn exit .A 0 0 (.sourceActivation .A) [] [.destActivation ⟨.A, 3⟩, .destActivation ⟨.B, 0⟩]
    ∧ TableFits s112a ∧ NamesFit s112a ∧ (s112a.patch 0).source = some ⟨.A, 1, none⟩ :=
  ⟨firstOn_of _ _ _ _ _ _ _ _ rfl (by decide +kernel) (fun _ h => h), tableFits_of _ (by decide +kernel),
    namesFit_of _ (by decide +kernel) (by decide +kernel) (by decide +kernel), by decide +kernel⟩
theorem witness_PlainEndpointsApplied_first_move (exit : Bool) :
    let s := after (exec (.rebind (cmd .aux [0, 4, 15, 0xFF])) (held s0 .E))
    s.FirstOn exit .E 0 0 (.sourceMove .E) [] [] ∧ TableFits s ∧ NamesFit s
    ∧ (s.patch 0).pendingSource = some ⟨.E, 15, none⟩ :=
  ⟨firstOn_of _ _ _ _ _ _ _ _ rfl (by decide +kernel) (fun _ h => h), tableFits_of _ (by decide +kernel),
    namesFit_of _ (by decide +kernel) (by decide +kernel) (by decide +kernel), by decide +kernel⟩
/-- Section 11.6's mute applies, A before B. -/
theorem witness_PlainEndpointsApplied_first_mute (exit : Bool) :
    let s := after (exec (.mute (cmd .main [5])) (put s112 5 (live [dst .B 0 .primed, dst .A 4 .primed])))
    s.FirstOn exit .A 0 5 (.muteApply .A) [.muteApply .B] [] ∧ TableFits s ∧ NamesFit s :=
  ⟨firstOn_of _ _ _ _ _ _ _ _ rfl (by decide +kernel) (fun _ h => h), tableFits_of _ (by decide +kernel),
    namesFit_of _ (by decide +kernel) (by decide +kernel) (by decide +kernel)⟩
/-- A RETIRE under DRAIN of a patch whose source and destination lie on one port. -/
theorem witness_PlainEndpointsApplied_first_close (exit : Bool) :
    let s := after (exec (.retire (cmd .main [5, 1])) (put s112 5 (live [dst .A 4 .unprimed])))
    s.FirstOn exit .A 0 5 (.intakeClose .A) [] [.release ⟨.A, 4⟩] ∧ TableFits s ∧ NamesFit s ∧ (s.patch 5).dests ≠ [] :=
  ⟨firstOn_of _ _ _ _ _ _ _ _ rfl (by decide +kernel) (fun _ h => h), tableFits_of _ (by decide +kernel),
    namesFit_of _ (by decide +kernel) (by decide +kernel) (by decide +kernel), by decide +kernel⟩
theorem witness_PlainEndpointsApplied_move (exit : Bool) :
    let s := after (exec (.rebind (cmd .aux [0, 4, 15, 0xFF])) (held s0 .E))
    s.Foremost (if exit then .lockedExit .E else .frameStart .E false) ∧ s.OnlyWaits .E 0 0 (.sourceMove .E)
    ∧ s.pcHolds .E = true ∧ (s.ticket 0).op = some .rebind ∧ (s.patch 0).pendingSource = some ⟨.E, 15, none⟩ :=
  ⟨State.foremost_of_raised_nil _ rfl, onlyWaits_of _ _ _ _ _ (by decide), by decide, by decide, by decide⟩
theorem witness_PlainEndpointsApplied_activation (exit : Bool) :
    let s := ((held s0 .A).modPatch 0 fun r => { r with state := .pending, intake := .waiting }).setTicket 0
      (waits .install 0 [.sourceActivation .A])
    s.Foremost (if exit then .lockedExit .A else .frameStart .A false) ∧ s.OnlyWaits .A 0 0 (.sourceActivation .A)
    ∧ s.pcHolds .A = true ∧ (s.ticket 0).op = some .install ∧ (s.patch 0).source = some ⟨.A, 0, none⟩
    ∧ (s.patch 0).state = .pending ∧ (s.patch 0).intake = .waiting :=
  ⟨State.foremost_of_raised_nil _ rfl, onlyWaits_of _ _ _ _ _ (by decide), by decide, by decide, by decide, by decide,
    by decide⟩
theorem witness_PlainEndpointsApplied_mute (exit : Bool) :
    let s := after (exec (.mute (cmd .aux [0])) (held s0 .B))
    s.Foremost (if exit then .lockedExit .B else .frameStart .B false) ∧ s.OnlyWaits .B 0 0 (.muteApply .B)
    ∧ s.pcHolds .B = true ∧ (s.ticket 0).op = some .mute :=
  ⟨State.foremost_of_raised_nil _ rfl, onlyWaits_of _ _ _ _ _ (by decide), by decide, by decide⟩
/-- The drain example's RETIRE as it was accepted. -/
theorem witness_PlainEndpointsApplied_close (exit : Bool) :
    let s := after (exec (.retire (cmd .main [20, 1])) sDrain)
    s.Foremost (if exit then .lockedExit .A else .frameStart .A false)
    ∧ s.WaitsAmong .A 0 20 (.intakeClose .A) [] [.release ⟨.B, 0⟩, .release ⟨.C, 6⟩]
    ∧ s.pcHolds .A = true ∧ (s.ticket 0).op = some .retire ∧ (s.patch 20).dests ≠ [] :=
  ⟨State.foremost_of_raised_nil _ rfl, waitsAmong_of _ _ _ _ _ _ _ (by decide), by decide, by decide, by decide⟩
theorem witness_DormancyChanges (b : Bool) :
    let s : State := { (if b then held s0 .F else s0) with raised := [.lockedExit .B] }
    let t : State := { s with raised := [.dormancyChange .F (!b), .lockedExit .F] }
    s.Foremost (.dormancyChange .F b) ∧ s.pcHolds .F = b ∧ .dormancyChange .F (!b) ∉ s.raised ∧ s.pcHolds .F ≠ (!b)
    ∧ s.Foremost (.dormancyChange .F (!b)) ∧ .dormancyChange .F (!b) ∈ t.raised ∧ t.Foremost (.dormancyChange .F (!b)) := by
  cases b <;> exact ⟨foremost_of _ _ (by decide), by decide, by decide, by decide, foremost_of _ _ (by decide), by decide,
    foremost_of _ _ (by decide)⟩
/-- An arrival taken before the frame start raised before it, and a LOCKED entry taken before the exit raised before it. -/
theorem witness_DormancyChanges_order :
    let x : Event := .frameStart .A false
    let e : Event := .arrival 0 .A 0 (.single 1)
    let s : State := { s0 with raised := [.lockedExit .B, x] ++ e :: [] }
    (s.raised = [.lockedExit .B] ++ x :: [e] ∧ (∀ y ∈ [Event.lockedExit .B], y.port ≠ e.port) ∧ x.port = e.port ∧ x ≠ e
      ∧ (∀ y ∈ [e], y.port = e.port → y.isDormancy = false) ∧ x.handsOn = none ∧ ∃ t, exec x.instr s = .next t)
    ∧ (let y : Event := .lockedExit .A
       let f : Event := .frameStart .A true
       let u : State := { s0 with raised := [y, f] }
       u.raised = [] ++ y :: [f] ∧ y ≠ f ∧ y.handsOn = some (.dormancyChange .A false) ∧ ∃ t, exec y.instr u = .next t) :=
  ⟨⟨by decide, by decide, by decide, by decide, by decide, by decide, next_of (by decide)⟩, by decide, by decide, by decide,
    next_of (by decide)⟩

/-! ### The Sample Exchange -/

theorem witness_ArrivalHandled_taken :
    let r := sQueue.patch 9
    r.state ≠ .free ∧ sQueue.inEntry .A 0 = some ⟨.holder, 9, .single⟩ ∧ r.intake = .opened ∧ r.queue.length = r.depth
    ∧ ((r.dests.filter fun d => d.phase = .unprimed ∨ d.phase = .primed).map Destination.name) ≠ []
    ∧ sQueue.Foremost (.arrival 9 .A 0 (.single 4)) :=
  ⟨by decide, by decide, by decide, by decide, by decide, State.foremost_of_raised_nil _ rfl⟩
theorem witness_ArrivalHandled_passed_over : (on.patch 0).state = .free ∧ (s0.patch 0).state ≠ .free
    ∧ (∀ role, s0.inEntry .A 1 ≠ some ⟨.holder, 0, role⟩)
    ∧ ({ s0 with raised := [.lockedExit .F] } : State).Foremost (.arrival 0 .A 1 (.single 4)) :=
  ⟨by decide, by decide, by intro role; cases role <;> decide, foremost_of _ _ (by decide)⟩
theorem witness_FirstSlotIdleAndSecondSlot :
    let s := sQueue.modPatch 9 fun r => { r with queue := r.queue.take 2 }
    let r := s.patch 9
    r.dests = [dst .B 0 .primed, dst .C 4 .primed] ++ dst .D 2 .unprimed :: []
    ∧ (∀ y ∈ [dst .B 0 .primed, dst .C 4 .primed] ++ [], y.name ≠ ⟨.D, 2⟩)
    ∧ (r.queue.filter fun e => ⟨.D, 2⟩ ∈ e.owed).length + 1 = r.startLevel ∧ (∀ d ∈ r.dests, d.name ≠ ⟨.D, 3⟩)
    ∧ s.Foremost (.take 9 .D 2) ∧ s.Foremost (.secondSlotRequest 9 .D 2) :=
  ⟨by decide, by decide, by decide, by decide, State.foremost_of_raised_nil _ rfl, State.foremost_of_raised_nil _ rfl⟩
theorem witness_TakeDelivers :
    let r := sQueue.patch 9
    r.dests = [dst .B 0 .primed, dst .C 4 .primed] ++ dst .D 2 .unprimed :: []
    ∧ r.queue = [⟨.single 1, [⟨.C, 4⟩]⟩] ++ ⟨.single 2, [⟨.C, 4⟩, ⟨.D, 2⟩]⟩
        :: [⟨.single 3, [⟨.B, 0⟩, ⟨.C, 4⟩, ⟨.D, 2⟩]⟩]
    ∧ r.startLevel ≤ (r.queue.filter fun x => ⟨.D, 2⟩ ∈ x.owed).length ∧ sQueue.Foremost (.take 9 .D 2) :=
  ⟨by decide, by decide, by decide, State.foremost_of_raised_nil _ rfl⟩
theorem witness_TakeSubstitutes :
    let r := s106.patch 6
    r.dests = [] ++ { dst .B 0 .primed with underruns := 3 } :: [{ dst .C 0 .primed with underruns := 2 }]
    ∧ (∀ e ∈ r.queue, ⟨.B, 0⟩ ∉ e.owed) ∧ r.source = some ⟨.A, 0, none⟩ ∧ s106.sxHolds .A = true ∧ r.intake = .opened
    ∧ s106.Foremost (.take 6 .B 0) :=
  ⟨by decide, by decide, by decide, by decide, by decide, State.foremost_of_raised_nil _ rfl⟩

/-! ### Settings, reads, ports, alerts -/

theorem witness_PatchSettings :
    ((cmd .main [0]).len = 1 ∧ ((cmd .main [0]).param 0).toNat < 48 ∧ (s0.patch 0).state = .live
      ∧ ∀ k, (s0.ticket k).state = .waiting → 0 ∉ (s0.ticket k).donors)
    ∧ ((sFan.patch 5).state ≠ .free ∧ (sFan.patch 5).state ≠ .live)
    ∧ ((cmd .aux [0, 15, 3, 1, 0xFF, 0, 0, 0, 0]).len = 9 ∧ (cmd .aux [0, 15, 3, 1, 0xFF, 0, 0, 0, 0]).wf = true
      ∧ tuneFieldsOk (cmd .aux [0, 15, 3, 1, 0xFF, 0, 0, 0, 0]) = true ∧ (s0.patch 0).owner = s0.rights.tag
      ∧ (s0.patch 0).locked = false)
    ∧ s0.Accepts .main ∧ s0.Accepts .aux :=
  ⟨by decide, by decide, by decide, accepts_of _ _ (by decide), accepts_of _ _ (by decide)⟩
theorem witness_ReadsOfPatches :
    ((cmd .aux [0]).len = 1 ∧ (s0.patch (patchOf 0)).state ≠ .free) ∧ ((cmd .aux [47]).len = 1 ∧ (47 : Byte).toNat < 48)
    ∧ ((cmd .aux [5, 1]).len = 2 ∧ (5 : Byte).toNat < 6) ∧ ((cmd .aux [0, 1]).param 1 = 1 ∧ (s0.patch 0).owner = s0.rights.tag)
    ∧ ((cmd .aux [1, 1]).param 1 = 1 ∧ (s115.patch 30).owner ≠ s115.rights.tag)
    ∧ s0.Accepts .aux := ⟨by decide, by decide, by decide, by decide, by decide, accepts_of _ _ (by decide)⟩
theorem witness_PortSetReplacesConfig (b : Bool) :
    let c : PortConfig := ⟨.follower, .split, 16, 32, 32, 1, 0, 255, 127⟩
    let s := if b then State.reset.setPort .F follower else State.reset
    let t := cmd .main [5, 1, 1, 16, 32, 32, 1, 0, 0, 0, 0, 255, 127]
    t.len = 13 ∧ t.wf = true ∧ (t.param 0).toNat < 6 ∧ (t.param 1).toNat < 2 ∧ (t.param 2).toNat < 2 ∧ c.Fits
    ∧ s.Accepts .main ∧ (s.port .F).state = (if b then .locked else .off) := by
  cases b <;> exact ⟨by decide, by decide, by decide, by decide, by decide,
    ⟨by decide, by decide, by decide, by decide, by decide, by decide, by decide⟩, accepts_of _ _ (by decide), by decide⟩
theorem witness_PortStarts :
    ((cmd .main [0]).len = 1 ∧ ((cmd .main [0]).param 0).toNat < 6) ∧ (sLeader.port .A).state = .off
    ∧ (sLeader.port .A).config.role = .leader ∧ sLeader.Clear .A
    ∧ ((sLeader.port .F).state = .off ∧ (sLeader.port .F).config.role = .follower) ∧ sLeader.Accepts .main :=
  ⟨by decide, by decide, by decide, fun _ h => (by cases h), by decide, accepts_of _ _ (by decide)⟩
theorem witness_PortStops :
    let s := sFan.setPort .B follower
    (cmd .main [1]).len = 1 ∧ s.Accepts .main ∧ s.Settled .B ∧ (s.port .B).state = .locked
    ∧ (∀ k, (s.ticket k).state = .waiting → (s.ticket k).subject.isSome = true)
    ∧ ((s.setPort .B { follower with state := .lost }).port .B).state ≠ .off :=
  ⟨by decide, accepts_of _ _ (by decide), fun _ h => (by cases h), by decide, by decide, by decide⟩
theorem witness_ReadPortReports :
    (cmd .main [5, 1]).len = 2 ∧ ((cmd .main [5, 1]).param 0).toNat < 6 ∧ (cmd .main [5, 1]).param 1 = 1 ∧ on.Accepts .main :=
  ⟨by decide, by decide, by decide, accepts_of _ _ (by decide)⟩
/-- One aux frame of code `c` with these parameters is waiting. -/
def queued (c : Byte) (params : List Byte) : State :=
  { on with auxLink := ⟨[⟨c, 7, byte params.length, params⟩], [rs 1, rs 2, rs 3], none, []⟩ }

theorem witness_ReadAlertsReports :
    let s := queued 0x50 []
    (cmd .aux []).len = 0 ∧ s.Accepts .aux ∧ (s.link .aux).commands.head? = some ⟨0x50, 7, 0, []⟩ :=
  ⟨by decide, accepts_of _ _ (by decide), by decide⟩
theorem witness_AckAlertsRemoves :
    let ps : List Byte := [0x0F, 0xFF] ++ List.replicate 12 0xFF ++ [0x3F, 0x3F]
    let k := ackSetsOf (cmd .aux ps)
    (cmd .aux ps).len = 16 ∧ (queued 0x51 ps).Accepts .aux
    ∧ ((queued 0x51 ps).link .aux).commands.head? = some ⟨0x51, 7, 16, ps⟩
    ∧ (k.ticketDone < 2 ^ 12 ∧ k.evicted < 2 ^ 48 ∧ k.trouble < 2 ^ 48 ∧ k.portChange < 2 ^ 6 ∧ k.frameError < 2 ^ 6)
    ∧ ¬ (ackSetsOf (cmd .aux (List.replicate 14 0 ++ [0x40, 0]))).portChange < 2 ^ 6 :=
  ⟨by decide, accepts_of _ _ (by decide), by decide, by decide +kernel, by decide +kernel⟩
theorem witness_SetAlertMaskReplaces :
    (cmd .aux [31]).len = 1 ∧ ((cmd .aux [31]).param 0).toNat < 32 ∧ 32 ≤ ((cmd .aux [32]).param 0).toNat
    ∧ (queued 0x52 [31]).Accepts .aux ∧ ((queued 0x52 [31]).link .aux).commands.head? = some ⟨0x52, 7, 1, [31]⟩
    ∧ ((queued 0x52 [32]).link .aux).commands.head? = some ⟨0x52, 7, 1, [32]⟩ :=
  ⟨by decide, by decide, by decide, accepts_of _ _ (by decide), by decide, by decide⟩
theorem witness_SetAuxEnablesAndDisables :
    let t (e : Byte) := cmd .main [e, 7, 0x3F]
    (t 0).len = 3 ∧ ((t 0).param 0).toNat < 2 ∧ ((t 1).param 0 = 1) ∧ 1 ≤ ((t 0).param 1).toNat ∧ ((t 0).param 1).toNat ≤ 7
    ∧ ((t 0).param 2).toNat < 64 ∧ on.Accepts .main ∧ on.rights.enabled = true ∧ State.reset.rights.enabled = false
    ∧ State.reset.Accepts .main :=
  ⟨by decide, by decide, by decide, by decide, by decide, by decide, accepts_of _ _ (by decide), by decide, by decide,
    accepts_of _ _ (by decide)⟩

/-! ### Transports -/

theorem witness_SendJudged :
    State.reset.spi = none ∧ ([true, false, true, false, true, false, true] : List Bool).length < 8
    ∧ (3 ≤ ([0x11, 1, 2, 0, 0] : List Byte).length ∧ 3 + (([0x11, 1, 2, 0, 0] : List Byte).getD 2 0).toNat ≤ 5)
    ∧ ¬ (3 + (([0x11, 1, 2, 0] : List Byte).getD 2 0).toNat ≤ 4) ∧ State.reset.mainLink.commands.length < 4
    ∧ 4 ≤ ({ on with mainLink := ⟨[fr 1, fr 2, fr 3, fr 4], [], none, []⟩ } : State).mainLink.commands.length
    ∧ ((4 : Byte) ≠ 0x01 ∧ (4 : Byte) ≠ 0x02 ∧ (4 : Byte) ≠ 0x03)
    ∧ (∃ t, exec (.send (.select :: clocks [true])) State.reset = .next t) :=
  ⟨by decide, by decide, by decide, by decide, by decide, by decide, by decide, next_of (by decide)⟩
theorem witness_FetchAndStatus :
    ({ on with mainLink := ⟨[], [rs 1], none, []⟩ } : State).mainLink.responses = rs 1 :: []
    ∧ on.mainLink.responses = [] ∧ on.spi = none
    ∧ (let s : State := { on with mainLink := ⟨[], [rs 1], none, []⟩, spi := some ⟨[], some 0x02, [9], [1, 1, 0x50, 0], true⟩ }
       s.spi = some ⟨[], some 0x02, [9], [1, 1, 0x50, 0], true⟩ ∧ 4 ≤ [9].length + (List.replicate 24 false).length / 8)
    ∧ (let s : State := { on with spi := some ⟨[], some 0x03, [], [4, 0, 0, 0], false⟩ }
       s.spi = some ⟨[], some 0x03, [], [4, 0, 0, 0], false⟩) := by decide
theorem witness_AuxWriteJudged :
    let s (phase : BusPhase) : State := { s86 with i2c := busAt true phase }
    ((s (.writing [])).i2c = busAt true (.writing []) ∧ 4 ≤ (s (.writing [])).auxLink.commands.length
      ∧ on.auxLink.commands.length < 4)
    ∧ (s (.writing [0x11, 1])).i2c = busAt true (.writing [0x11, 1])
    ∧ (frameOfBytes [0x11, 1, 1, 9] = some ⟨0x11, 1, 1, [9]⟩ ∧ frameOfBytes [0x11, 1, 1] = none)
    ∧ (s .refused).i2c = busAt true .refused ∧ (s .ignoring).i2c = busAt true .ignoring := by decide
theorem witness_AuxReads :
    on.i2c = ⟨⟨true, true⟩, none, false, .ignoring, [], .no⟩
    ∧ (let s : State := { s86 with i2c := ⟨⟨false, true⟩, none, false, .address true, [], .no⟩ }
       s.rights.enabled = true ∧ s.i2c = ⟨⟨false, true⟩, none, false, .address true, [], .no⟩ ∧ s.auxAddress = 0x2A
       ∧ s.auxAddress ≠ 0x2B ∧ s.auxLink.responses = rs 1 :: [rs 2, rs 3, rs 4])
    ∧ State.reset.rights.enabled = false ∧ on.auxLink.responses = []
    ∧ (let s : State := { s86 with i2c := busAt false (.reading [7] true) }
       s.i2c = busAt false (.reading [7] true) ∧ [7].length = 1)
    ∧ ({ on with i2c := busAt true .ignoring } : State).i2c = busAt true .ignoring
    ∧ ∃ t, exec (.responseRead [⟨true, false⟩] []) on = .next t :=
  ⟨by decide, by decide, by decide, by decide, by decide, by decide, next_of (by decide)⟩

/-! ### Framing and slots -/

/-- A bus of one port: port C runs `r`, and these events are in flight. -/
def only (r : PortRec) (events : List Event) : State := { s0.setPort .C r with raised := events }

theorem sees_of (r : PortRec) (kind : SyncEdge) (samples : List Bool) (h : r.sees kind samples = true) : r.Sees kind samples :=
  ((PortRec.sees_iff r kind samples).1 h).2.2.1

theorem fits_follower : follower.config.Fits := ⟨by decide, by decide, by decide, by decide, by decide, by decide, by decide⟩
theorem fits_split : split.config.Fits := ⟨by decide, by decide, by decide, by decide, by decide, by decide, by decide⟩
theorem fits_leader : leader.config.Fits := ⟨by decide, by decide, by decide, by decide, by decide, by decide, by decide⟩

/-- A take of port C is in flight, an arrival of port A before it; of what is taken first, an exit hands on a change. -/
theorem answered_next (r : PortRec) :
    let s := only r [.arrival 0 .A 0 (.single 1), .take 0 .C 1]
    .take 0 .C 1 ∈ s.raised ∧ (Event.take 0 .C 1).port = .C ∧ ¬ s.Answered .C ∧ ¬ s.Settled .C
    ∧ s.Foremost (.take 0 .C 1) ∧ (Event.take 0 .C 1).handsOn = none ∧ ∃ t, exec (Event.take 0 .C 1).instr s = .next t :=
  ⟨by simp [only], rfl, fun h => absurd (h (.take 0 .C 1) (by simp [only]) rfl) (by decide),
    fun h => absurd (h (.take 0 .C 1) (by simp [only]) rfl) (by decide),
    foremost_of _ _ (by simp [only, Event.port, Event.isDormancy]), rfl, ⟨_, rfl⟩⟩
theorem settled_next (r : PortRec) :
    let s := only r [.lockedExit .C, .take 0 .C 1]
    .lockedExit .C ∈ s.raised ∧ ¬ s.Answered .C ∧ ¬ s.Settled .C ∧ ¬ s.Clear .C ∧ s.Foremost (.lockedExit .C)
    ∧ (Event.lockedExit .C).handsOn = some (.dormancyChange .C false)
    ∧ ∃ t, exec (Event.lockedExit .C).instr s = .next t :=
  ⟨by simp [only], fun h => absurd (h (.take 0 .C 1) (by simp [only]) rfl) (by decide),
    fun h => absurd (h (.take 0 .C 1) (by simp [only]) rfl) (by decide), fun h => h (.take 0 .C 1) (by simp [only]) rfl,
    foremost_of _ _ (by simp [only, Event.port, Event.isDormancy]), rfl, ⟨_, rfl⟩⟩
/-- An arrival alone of port C is in flight. -/
theorem clear_next (r : PortRec) :
    let s := only r [.arrival 0 .C 0 (.single 1)]
    .arrival 0 .C 0 (.single 1) ∈ s.raised ∧ s.Settled .C ∧ ¬ s.Clear .C ∧ s.Foremost (.arrival 0 .C 0 (.single 1))
    ∧ (Event.arrival 0 .C 0 (.single 1)).handsOn = none ∧ ∃ t, exec (Event.arrival 0 .C 0 (.single 1)).instr s = .next t :=
  ⟨by simp [only], settled_of _ _ (by simp [only, Event.isArrival]),
    fun h => h (.arrival 0 .C 0 (.single 1)) (by simp [only]) rfl,
    foremost_of _ _ (by simp [only, Event.port, Event.isDormancy]), rfl, ⟨_, rfl⟩⟩
/-- The port commands find port C so: OFF as a leader, or LOCKED. -/
theorem witness_TakenFirst_ports :
    let off : PortRec := { PortRec.powerOn with config := leader.config }
    let s (r : PortRec) := only r [.lockedExit .C, .take 0 .C 1]
    ((s off).port .C = off ∧ off.state = .off ∧ off.config.role = .leader ∧ (s off).Accepts .main)
    ∧ (s follower).port .C = follower ∧ follower.state ≠ .off ∧ (cmd .main [2]).len = 1 ∧ portOf ((cmd .main [2]).param 0) = .C :=
  ⟨⟨rfl, rfl, rfl, accepts_of _ _ (by decide)⟩, rfl, by decide, by decide, by decide⟩

theorem answered_nil (r : PortRec) : (only r []).Answered .C ∧ (only r []).Settled .C :=
  ⟨fun _ h => (by cases h), fun _ h => (by cases h)⟩

theorem witness_FollowerAcquiresLock (x : PortState) (b : Bool) :
    let r : PortRec := { follower with state := x, good := if b then 1 else 0 }
    ((only r []).port .C = r ∧ r.config.role = .follower ∧ r.config.Fits ∧ (only r []).Answered .C)
    ∧ (x ≠ .off → r.Sees .frameStart (rise 256)) ∧ r.endsFrame (rise 256).length ∧ r.pos.clocks ≤ (rise 256).length
    ∧ leader.config.role = .leader ∧ ¬ r.Sees .frameStart [false, false] := by
  refine ⟨⟨rfl, rfl, fits_follower, (answered_nil _).1⟩, fun h => sees_of _ _ _ ?_, (show 8 * 32 ≤ (rise 256).length by decide +kernel),
    (show 0 ≤ (rise 256).length from Nat.zero_le _), rfl, fun h => ?_⟩
  · cases x <;> cases b <;> first | exact absurd rfl h | exact (show PortRec.sees _ _ (rise 256) = true by decide +kernel)
  · obtain ⟨a, u, v, e, m⟩ := h.2.1
    replace e : [false, false] = a ++ [u, v] := e
    have : a = [] := by simpa using congrArg List.length e
    subst this
    cases e
    cases m
theorem witness_FollowerAcquiresLock_bad :
    ({ follower with state := .locking, bad := true } : PortRec).bad = true ∧ follower.bad = false
    ∧ 100 < ({ follower with state := .locking, pos := .counting .first 200 } : PortRec).pos.clocks := by decide
theorem witness_FrameErrors (b : Bool) :
    let r : PortRec := { follower with consecutive := if b then 2 else 1 }
    (only r []).port .C = r ∧ r.config.role = .follower ∧ r.config.Fits ∧ r.state = .locked
    ∧ r.Sees .frameStart (rise 256) ∧ r.endsFrame 256 ∧ r.Sees .frameStart (rise 255) ∧ ¬ r.endsFrame 255
    ∧ (only r []).Answered .C := by
  cases b <;> exact ⟨rfl, rfl, fits_follower, rfl, sees_of _ _ _ (by decide +kernel), (show 8 * 32 ≤ 256 by decide),
    sees_of _ _ _ (by decide +kernel), (show ¬ 8 * 32 ≤ 255 by decide), (answered_nil _).1⟩
theorem witness_FrameErrors_locking :
    let r : PortRec := { follower with state := .locking, pos := .counting .first 200 }
    r.state = .locking ∧ r.Sees .frameStart (rise 200) ∧ ¬ r.endsFrame 200 ∧ r.pos.clocks ≤ 200 ∧ 199 < r.pos.clocks :=
  ⟨rfl, sees_of _ _ _ (by decide +kernel), (show ¬ 8 * 32 ≤ 200 by decide), by decide, by decide⟩
/-- In the second half of a SPLIT frame the frame ends half a frame after the mid edge. -/
theorem witness_FrameErrors_split :
    let r : PortRec := { split with pos := .counting .second 0, sync := some true }
    r.config.role = .follower ∧ r.state = .locked ∧ r.Sees .frameStart (fall 32) ∧ r.endsFrame 32 ∧ ¬ r.endsFrame 31 :=
  ⟨by decide, by decide, sees_of _ _ _ (by decide), (show 2 / 2 * 32 ≤ 32 by decide), (show ¬ 2 / 2 * 32 ≤ 31 by decide)⟩
theorem witness_MidEdges (x : PortState) (b : Bool) :
    let r : PortRec := { split with state := x, consecutive := if b then 2 else 1 }
    (only r []).port .C = r ∧ r.config.role = .follower ∧ r.config.Fits ∧ r.config.framing = .split ∧ r.pos = .counting .first 0
    ∧ (x ≠ .off → r.Sees .mid (rise 32) ∧ r.Sees .mid (rise 31)) ∧ (only r []).Answered .C
    ∧ r.config.slots / 2 * r.config.slotWidth ≤ (rise 32).length ∧ (rise 31).length < r.config.slots / 2 * r.config.slotWidth
    ∧ r.pos.clocks ≤ (rise 31).length := by
  cases b <;> exact ⟨rfl, rfl, fits_split, rfl, rfl, fun h => ⟨sees_of _ _ _ (by cases x <;> first | exact absurd rfl h | decide),
    sees_of _ _ _ (by cases x <;> first | exact absurd rfl h | decide)⟩, (answered_nil _).1,
    (show 2 / 2 * 32 ≤ (rise 32).length by decide), (show (rise 31).length < 2 / 2 * 32 by decide),
    (show 0 ≤ (rise 31).length by decide)⟩
theorem witness_MidEdges_second_half :
    let r : PortRec := { split with pos := .counting .second 3, sync := some false }
    r.Sees .mid (rise 4) ∧ r.pos.clocks ≤ 4 ∧ 2 < r.pos.clocks ∧ r.config.role = .follower ∧ leader.config.role = .leader
    ∧ follower.config.framing = .pulse :=
  ⟨sees_of _ _ _ (by decide), by decide, by decide, by decide, by decide, by decide⟩
theorem witness_LeaderFrames :
    (only leader []).port .C = leader ∧ leader.config.role = .leader ∧ leader.state = .locked ∧ leader.config.Fits
    ∧ (only leader []).Answered .C ∧ follower.config.role = .follower ∧ (sLeader.port .A).state ≠ .locked :=
  ⟨rfl, by decide, by decide, fits_leader, (answered_nil _).1, by decide, by decide⟩
theorem witness_LossTimer_tick :
    PortsFit sLoss ∧ (sLoss.port .B).config.lossTimeout ≤ 23 + 1 ∧ (sLoss.port .B).lossTimer = some 23
    ∧ (sLoss.port .B).state = .locked ∧ ∀ p, sLoss.Answered p :=
  ⟨sLoss_fits, by decide, by decide, by decide, fun _ _ h => (by cases h)⟩
theorem witness_LossTimer_expiry :
    (only follower []).port .C = follower ∧ follower.config.role = .follower ∧ follower.state = .locked
    ∧ (only follower []).Answered .C ∧ ({ follower with state := .locking } : PortRec).state = .locking
    ∧ leader.config.role = .leader := ⟨rfl, by decide, by decide, (answered_nil _).1, by decide, by decide⟩
/-- The first and the last bit clock at which a slot event is raised, and a leader's second half that follows its first. -/
theorem witness_SlotCompleteByEntry :
    let s := { s0.setPort .A leader with raised := [.arrival 0 .A 1 (.single 2)] }
    let r (k : Nat) : PortRec := { leader with pos := .counting .first k }
    (r 0).Comes 0 ((r 0).config.spanEnd 0) False ∧ (r 255).Comes 7 ((r 0).config.spanEnd 7) False
    ∧ ¬ (r 32).Comes 0 ((r 0).config.spanEnd 0) False
    ∧ ({ leader with config := { split.config with role := .leader } } : PortRec).Comes 1 32 False
    ∧ s.port .A = r 0 ∧ (r 0).config.Fits ∧ s.Settled .A
    ∧ s.inEntry .A 0 = some ⟨.holder, 0, .single⟩ ∧ s.inEntry .A 7 = none
    ∧ ((s.setIn .A 7 (some ⟨.reservation, 0, .right⟩)).inEntry .A 7 = some ⟨.reservation, 0, .right⟩)
    ∧ ((s.setIn .A 7 (some ⟨.holder, 0, .left⟩)).inEntry .A 7 = some ⟨.holder, 0, .left⟩)
    ∧ ((s.setIn .A 7 (some ⟨.holder, 0, .right⟩)).inEntry .A 7 = some ⟨.holder, 0, .right⟩) := by
  refine ⟨⟨by decide, by decide, Or.inl ⟨0, by decide, Or.inl (by decide)⟩⟩,
    ⟨by decide, by decide, Or.inl ⟨255, by decide, Or.inl (by decide)⟩⟩, ?_,
    ⟨by decide, by decide, Or.inr ⟨by decide, by decide, 0, by decide⟩⟩, by decide, fits_leader, settled_of _ _ (by decide),
    by decide, by decide, by decide, by decide, by decide⟩
  rintro ⟨-, -, ⟨k, hk, h | h⟩ | ⟨-, h, -⟩⟩
  · cases hk; exact absurd h (by decide)
  · exact h.1
  · exact absurd h (by decide)
theorem witness_SlotDueByEntry :
    let s := s0.setPort .B follower
    follower.Comes 1 (follower.config.spanStart 1) (follower.dueSlot = none) ∧ follower.config.Fits
    ∧ ({ follower with pos := .counting .first 1 } : PortRec).Comes 0 (follower.config.spanStart 0) (follower.dueSlot = none)
    ∧ s.port .B = follower ∧ s.Settled .B ∧ (s.outEntry .B 1).holder = some ⟨0, 1, false⟩ ∧ (s.outEntry .B 7).holder = none
    ∧ ((s.setOut .B 2 ⟨some ⟨0, 1, true⟩, none⟩).outEntry .B 2).holder = some ⟨0, 1, true⟩
    ∧ follower.config.slots ≤ (8 : Slot).val :=
  ⟨⟨by decide, by decide, Or.inl ⟨0, by decide, Or.inl (by decide)⟩⟩, fits_follower,
    ⟨by decide, by decide, Or.inl ⟨1, by decide, Or.inr ⟨by decide, by decide⟩⟩⟩, by decide, fun _ h => (by cases h), by decide,
    by decide, by decide, by decide⟩
/-- No slot event is raised outside LOCKED, at or beyond the slots per frame, or before the half of the slot. -/
theorem witness_SlotDueByEntry_none (c : Nat) (now : Prop) :
    ¬ ({ follower with state := .locking } : PortRec).Comes 0 c now ∧ ¬ follower.Comes 8 c now ∧ ¬ split.Comes 1 c now := by
  refine ⟨fun h => absurd h.1 (by decide), fun h => absurd h.2.1 (by decide), ?_⟩
  rintro ⟨-, -, ⟨k, hk, -⟩ | ⟨h, -⟩⟩
  · exact absurd hk (by simp [split, follower, PortConfig.halfOf, PortConfig.powerOn])
  · exact absurd h (by decide)

end Sys2Proof.Tests
end

/-! The victim of an eviction (R91): `victim?` is the first minimum of the priorities over the candidates of the install-order
list, and two candidates stand in the list of candidates in the order in which they stand in the install-order list. -/

namespace Sys2Proof.Machine

/-- Filtering a list keeps which of two kept members stands first. -/
theorem idxOf_filter_le_iff {α : Type} [DecidableEq α] {p : α → Bool} {a b : α} (ha : p a = true) (hb : p b = true)
    (l : List α) : (l.filter p).idxOf a ≤ (l.filter p).idxOf b ↔ l.idxOf a ≤ l.idxOf b := by
  induction l with
  | nil => simp
  | cons x l ih =>
    by_cases hx : p x = true
    · rw [List.filter_cons_of_pos hx]
      by_cases hxa : x = a
      · simp [hxa]
      · by_cases hxb : x = b
        · simp [hxb, List.idxOf_cons_ne _ (hxb ▸ hxa)]
        · simp [List.idxOf_cons_ne _ hxa, List.idxOf_cons_ne _ hxb, ih]
    · have hxa : x ≠ a := fun h => hx (h ▸ ha)
      have hxb : x ≠ b := fun h => hx (h ▸ hb)
      simp [hx, List.idxOf_cons_ne _ hxa, List.idxOf_cons_ne _ hxb, ih]

section

variable (s : State) (l : Link) (priority : Fin 4) (donors : List PatchNo)

/-- The conditions of R91 on a candidate. -/
theorem State.evictable_iff (m : PatchNo) :
    s.evictable l priority donors m = true ↔
      (s.patch m).state = .live ∧ (s.patch m).locked = false ∧ s.busy m = false ∧ m ∉ donors
      ∧ (s.patch m).priority < priority ∧ (l = .aux → (s.patch m).owner = s.rights.tag) := by
  cases l <;> simp [State.evictable, State.auxOwned, and_assoc]

/-- The victim is the first minimum of the priorities in the list of candidates. -/
theorem State.victim?_eq_argmin :
    s.victim? l priority donors =
      (s.order.filter (s.evictable l priority donors)).argmin fun m => (s.patch m).priority := by
  rw [State.victim?, List.argmin]
  congr 1
  funext best n
  cases best <;> rfl

/-- A victim is a candidate, and any other candidate has a higher priority, or the same and stands no earlier in the
install-order list. -/
theorem State.victim?_spec {v : PatchNo} (h : s.victim? l priority donors = some v) :
    (v ∈ s.order ∧ s.evictable l priority donors v = true)
    ∧ ∀ m ∈ s.order, s.evictable l priority donors m = true →
        (s.patch v).priority < (s.patch m).priority
        ∨ (s.patch v).priority = (s.patch m).priority ∧ s.order.idxOf v ≤ s.order.idxOf m := by
  rw [State.victim?_eq_argmin, List.argmin_eq_some_iff] at h
  obtain ⟨hv, lowest, first⟩ := h
  rw [List.mem_filter] at hv
  refine ⟨hv, fun m hm hc => ?_⟩
  have hmem := List.mem_filter.mpr ⟨hm, hc⟩
  exact (lowest m hmem).lt_or_eq.imp_right fun heq =>
    ⟨heq, (idxOf_filter_le_iff hv.2 hc _).mp (first m hmem heq.ge)⟩

/-- There is no victim exactly where no patch of the install-order list is a candidate. -/
theorem State.victim?_eq_none_iff :
    s.victim? l priority donors = none ↔ ∀ m ∈ s.order, ¬ s.evictable l priority donors m = true := by
  rw [State.victim?_eq_argmin, List.argmin_eq_none, List.filter_eq_nil_iff]

end

/-- Settles O19: `victim?` is the first minimum of the priorities over the candidates, and filtering keeps their order. -/
theorem victimChoice : Obligations.VictimChoice := by
  intro s l priority donors
  simp only [← State.evictable_iff]
  refine ⟨fun v hv => ?_, ?_⟩
  · obtain ⟨hcand, hbest⟩ := s.victim?_spec l priority donors hv
    exact ⟨hcand, fun m hm => hbest m hm.1 hm.2⟩
  · rw [State.victim?_eq_none_iff]
    simp only [not_and]

end Sys2Proof.Machine

/-! ACK-ALERTS (R189): its outcomes as a taken command, and the members that an acknowledge leaves in a cause set. -/

namespace Sys2Proof.Machine

/-- Removing the members that a number names keeps the others of the set. -/
theorem getLsbD_and_not_ofNat {w : Nat} (v : BitVec w) (n i : Nat) :
    (v &&& ~~~BitVec.ofNat w n).getLsbD i = (v.getLsbD i && !n.testBit i) := by
  rw [BitVec.getLsbD_and, BitVec.getLsbD_not, BitVec.getLsbD_ofNat]
  by_cases hi : i < w
  · simp [hi]
  · simp [BitVec.getLsbD_of_ge v i (Nat.le_of_not_lt hi)]

/-- No set of an ACK-ALERTS names a member beyond its range. -/
theorem AckSets.inRange_iff (k : AckSets) :
    k.inRange = true ↔
      k.ticketDone < 2 ^ 12 ∧ k.evicted < 2 ^ 48 ∧ k.trouble < 2 ^ 48 ∧ k.portChange < 2 ^ 6 ∧ k.frameError < 2 ^ 6 := by
  simp only [AckSets.inRange, Bool.and_eq_true, decide_eq_true_eq, and_assoc]

/-- Section 8.7: the port sets are reported in one byte each. -/
theorem Alerts.setBytes_eq (a : Alerts) :
    a.setBytes = bigEndian 2 a.ticketDone.toNat ++ bigEndian 6 a.evicted.toNat ++ bigEndian 6 a.trouble.toNat
      ++ [byte a.portChange.toNat, byte a.frameError.toNat] := by
  simp [Alerts.setBytes, bigEndian]

/-- Taking a frame and replacing a link's cause sets do not touch the same fields. -/
theorem State.setAlerts_takeFrame (s : State) (code : Byte) (t : Taken) (l : Link) (a : Alerts) :
    (s.takeFrame code t).setAlerts l a = (s.setAlerts l a).takeFrame code t := by
  obtain ⟨link, seq, len, params⟩ := t
  cases l <;> cases link <;> rfl

/-- An ACK-ALERTS of the right length is refused only for a member beyond its range. -/
theorem firstFailure_ackAlertsChecks {t : Taken} (hlen : t.len = 16) (s : State) :
    firstFailure (ackAlertsChecks t s) = if (ackSetsOf t).inRange then none else some .badParam := by
  cases hk : (ackSetsOf t).inRange <;> simp [ackAlertsChecks, wrongLength, badParam, hlen, hk]

section

variable {t : Taken} {s : State}

/-- An ACK-ALERTS whose sets are in range acknowledges them in its own link's sets and answers the sets after it. -/
theorem execAckAlerts_carried (hlen : t.len = 16) (ha : s.Accepts t.link) (hk : (ackSetsOf t).inRange = true) :
    execAckAlerts t s =
      .next ((s.setAlerts t.link ((s.alerts t.link).acknowledge (ackSetsOf t))).answered 0x51 t .ok
        ((s.alerts t.link).acknowledge (ackSetsOf t)).setBytes) := by
  have hpass : firstFailure (ackAlertsChecks t (s.takeFrame 0x51 t)) = none := by
    rw [firstFailure_ackAlertsChecks hlen, if_pos hk]
  rw [execAckAlerts, hostCommand_carried ha hpass]
  simp only [carryAckAlerts, State.ok, State.takeFrame_alerts, State.setAlerts_takeFrame, State.respond_takeFrame]

/-- An ACK-ALERTS that names a member beyond its range is answered BAD_PARAM. -/
theorem execAckAlerts_refused (hlen : t.len = 16) (ha : s.Accepts t.link) (hk : ¬ (ackSetsOf t).inRange = true) :
    execAckAlerts t s = .next (s.answered 0x51 t .badParam []) :=
  hostCommand_refused ha (by rw [firstFailure_ackAlertsChecks hlen, if_neg hk])

end

/-- ACK-ALERTS is dispatched to `execAckAlerts`. -/
theorem exec_ackAlerts (t : Taken) (s : State) : exec (.ackAlerts t) s = execAckAlerts t s := rfl

/-- Settles O46: a command in range is carried out with the acknowledged sets, one out of range is refused. -/
theorem ackAlertsRemoves : Obligations.AckAlertsRemoves := by
  intro t s k hlen ha _
  simp only [exec_ackAlerts, ← AckSets.inRange_iff]
  refine ⟨fun hk => ⟨(s.alerts t.link).acknowledge k, ?_, rfl, ?_⟩, execAckAlerts_refused hlen ha⟩
  · rw [← Alerts.setBytes_eq]
    exact execAckAlerts_carried hlen ha hk
  · exact ⟨getLsbD_and_not_ofNat _ _, getLsbD_and_not_ofNat _ _, getLsbD_and_not_ofNat _ _,
      getLsbD_and_not_ofNat _ _, getLsbD_and_not_ofNat _ _⟩

end Sys2Proof.Machine
